-- ==== Sys2Proof/Word.lean ====
section
/-! DEFINITION. The plain types of the KZ-630 manual: bytes, ticks, channel and tier numbers, counters, timers. -/

namespace Sys2Proof

/-- One byte of a link frame (R186). -/
abbrev Byte := BitVec 8

/-- One tick value of the 24-bit Time Base counter (R169). -/
abbrev Tick := BitVec 24

/-- A channel number, 0–63 (R1). -/
abbrev ChanNo := Fin 64

/-- A window tier, 0–4 (R51). -/
abbrev Tier := Fin 5

/-- A counter of the Counter Bank, 16 bits (R182). -/
abbrev Count16 := BitVec 16

/-- A millisecond timer: `none` is stopped, `some n` is running with `n` ms remaining.
`some 0` has run out, and its expiry is due (assumption 3). -/
abbrev Timer := Option Nat

end Sys2Proof
end

