-- ==== Sys2Proof/Config.lean ====
section
/-! DEFINITION. What the manual fixes for every KZ-630: codes, capacities, times. The manual leaves no value of a
command's result open, so there is no free value here. -/

namespace Sys2Proof.Config

/-- The part code of DESCRIBE and of the Announce Frame (R128, R168). -/
def partCode : BitVec 16 := 0x630A
/-- The revision code (R128, R168). -/
def revision : Byte := 1

/-- Records the Event Queue holds (R105). -/
def queueCapacity : Nat := 96
/-- Records a Held list holds (R106). -/
def heldCapacity : Nat := 3
/-- Frames the Replay Buffer holds (R135). -/
def replayCapacity : Nat := 4
/-- Records an Event Frame holds (R117). -/
def recordsPerFrame : Nat := 8
/-- Copies the Mirror Buffer holds (R145). -/
def mirrorCapacity : Nat := 2
/-- Requests the Request Queue holds (R154). -/
def requestCapacity : Nat := 4
/-- Places of the Response Queue (R154). -/
def responseCapacity : Nat := 4
/-- Entries of the Response Cache (R154). -/
def cacheCapacity : Nat := 8
/-- Entries a Route Table bank holds (R21). -/
def routeCapacity : Nat := 24

/-- The largest sample value, mean, rate or baseline (00, "Counts"). -/
def maxCount : Nat := 4095
/-- Where a reject run saturates (R48). -/
def rejectRunMax : Nat := 15
/-- Where a pending loss saturates (R113). -/
def lossMax : Nat := 15
/-- Where the credit count saturates (R132). -/
def creditMax : Nat := 31
/-- The round count at which an ack-timer expiry stalls the link (R141). -/
def roundLimit : Nat := 3

/-- The ack timer's time (R139). -/
def ackTime : Nat := 20
/-- The announce period (R128). -/
def announceTime : Nat := 50
/-- Ticks without a byte that drop a frame in reception (R19, R146). -/
def truncationTicks : Nat := 2

/-- The sync pair that opens a frame (R187). -/
def syncBytes : List Byte := [0xC3, 0x3C]
/-- Idle fill between frames (R187). -/
def idleFill : Byte := 0x00

/-! Frame kinds (R187). -/
def kindSample : Byte := 0x10
def kindEvent : Byte := 0x20
def kindMirror : Byte := 0x21
def kindResponse : Byte := 0x22
def kindAnnounce : Byte := 0x23
def kindRequest : Byte := 0x30
def kindAck : Byte := 0x31

/-! Command codes (R190). -/
def cmdDescribe : Byte := 0x01
def cmdSetProfile : Byte := 0x10
def cmdGetProfile : Byte := 0x11
def cmdSetChannel : Byte := 0x12
def cmdGetChannel : Byte := 0x13
def cmdRebase : Byte := 0x14
def cmdSetRoute : Byte := 0x20
def cmdDropRoute : Byte := 0x21
def cmdCopyRoutes : Byte := 0x22
def cmdSwapRoutes : Byte := 0x23
def cmdGetRoutes : Byte := 0x24
def cmdSetAlert : Byte := 0x30
def cmdQuietAlert : Byte := 0x31
def cmdReadCounters : Byte := 0x32
def cmdClearCounters : Byte := 0x33
def cmdResync : Byte := 0x40
def cmdRestart : Byte := 0x41

/-- Every command code that names a command (R151, R190); any other code is unknown. -/
def knownCommands : List Byte :=
  [cmdDescribe, cmdSetProfile, cmdGetProfile, cmdSetChannel, cmdGetChannel, cmdRebase, cmdSetRoute, cmdDropRoute,
   cmdCopyRoutes, cmdSwapRoutes, cmdGetRoutes, cmdSetAlert, cmdQuietAlert, cmdReadCounters, cmdClearCounters,
   cmdResync, cmdRestart]

end Sys2Proof.Config
end

