-- ==== Sys2Proof/Syntax.lean ====
section
/-! DEFINITION. The commands of the KZ-630: one constructor per row of spec/opcode_table.json, in the table's order,
and the frames that some of them bring in. -/

namespace Sys2Proof

/-- A frame as a receiver has read it between its sync pair and its last CRC byte (R19, R187). The length byte is the
number of payload bytes, since the receiver reads exactly as many. How it is read from the bytes of a link is in
Machine/Line. -/
structure RawFrame where
  kind : Byte
  payload : List Byte
  crc : BitVec 16
  deriving DecidableEq, Repr

/-- One sample: its 12-bit value and the front end's overrange mark (R188). -/
structure Sample where
  value : BitVec 12
  overrange : Bool
  deriving DecidableEq, Repr

/-- The content of a well-formed Sample Frame, and of the Mirror Frame that copies it (R20, R33, R188). -/
structure SampleFrame where
  source : Byte
  sequence : Byte
  samples : List Sample
  deriving DecidableEq, Repr

/-- What caused a power reset (R127). -/
inductive PowerCause where
  /-- Power-up. -/
  | power
  /-- RESET_N asserted while power was present. -/
  | pin
  deriving DecidableEq, Repr

/-- The commands. Those that execute a request take no operand: its parameters lie in the Request Queue (R162). -/
inductive Instr where
  /-- POWER_RESET (R150): power-up begins, or RESET_N is asserted. -/
  | powerReset (cause : PowerCause)
  /-- RESET_N_RELEASE (R150): power-up ends, or RESET_N is released. -/
  | resetNRelease
  /-- SAMPLE_FRAME (R20): the last CRC byte of an inlet frame has arrived. -/
  | sampleFrame (frame : RawFrame)
  /-- INLET_TRUNCATION (R19). -/
  | inletTruncation
  /-- SILENCE_TIMER_EXPIRY (R30), of the active route of `source`. -/
  | silenceTimerExpiry (source : Byte)
  /-- QUIET_TIMER_EXPIRY (R97), of channel `c`. -/
  | quietTimerExpiry (c : ChanNo)
  /-- MAX_ACTIVE_EXPIRY (R79), of channel `c`. -/
  | maxActiveExpiry (c : ChanNo)
  /-- ACK_FRAME (R136): an Ack Frame is complete on the inbound lane. -/
  | ackFrame (frame : RawFrame)
  /-- INBOUND_DISCARD (R146): an inbound frame that fails a check is complete. -/
  | inboundDiscard (frame : RawFrame)
  /-- INBOUND_TRUNCATION (R146). -/
  | inboundTruncation
  /-- ACK_TIMER_EXPIRY (R141). -/
  | ackTimerExpiry
  /-- ANNOUNCE_TIMER_EXPIRY (R128). -/
  | announceTimerExpiry
  /-- HOLD_TIMER_EXPIRY (R179). -/
  | holdTimerExpiry
  /-- TRANSMISSION_COMPLETE (R130): the last CRC byte of the frame on the outbound lane has left. -/
  | transmissionComplete
  /-- RESPONSE_FRAME_SEND (R167). -/
  | responseFrameSend
  /-- ANNOUNCE_FRAME_SEND (R128). -/
  | announceFrameSend
  /-- RETRANSMITTED_FRAME (R140). -/
  | retransmittedFrame
  /-- NEW_EVENT_FRAME (R134). -/
  | newEventFrame
  /-- MIRROR_FRAME_SEND (R145). -/
  | mirrorFrameSend
  /-- REQUEST_FRAME (R155): a Request Frame is complete on the inbound lane. -/
  | requestFrame (frame : RawFrame)
  /-- DESCRIBE (R168). -/
  | describe
  /-- SET_PROFILE (R13). -/
  | setProfile
  /-- GET_PROFILE (R15). -/
  | getProfile
  /-- SET_CHANNEL (R16). -/
  | setChannel
  /-- GET_CHANNEL (R18). -/
  | getChannel
  /-- REBASE (R84). -/
  | rebase
  /-- SET_ROUTE (R34). -/
  | setRoute
  /-- DROP_ROUTE (R35). -/
  | dropRoute
  /-- COPY_ROUTES (R36). -/
  | copyRoutes
  /-- SWAP_ROUTES (R37). -/
  | swapRoutes
  /-- SWAP_TAKEN (R38): a swap that waited for a frame is taken. -/
  | swapTaken
  /-- GET_ROUTES (R40). -/
  | getRoutes
  /-- SET_ALERT (R180). -/
  | setAlert
  /-- QUIET_ALERT (R181). -/
  | quietAlert
  /-- READ_COUNTERS (R184). -/
  | readCounters
  /-- CLEAR_COUNTERS (R185). -/
  | clearCounters
  /-- RESYNC (R148). -/
  | resync
  /-- UNKNOWN_COMMAND (R162). -/
  | unknownCommand
  /-- TIME_BASE_TICK (R169). -/
  | timeBaseTick
  /-- INLET_SYNC_PAIR (R19). -/
  | inletSyncPair
  /-- INBOUND_SYNC_PAIR (R146). -/
  | inboundSyncPair
  /-- RESTART_WITH_PARAMETERS (R155). -/
  | restartWithParameters
  deriving DecidableEq, Repr

end Sys2Proof
end

