-- ==== Sys2Proof/Machine/Receive.lean ====
section
/-! DEFINITION. What a received frame says: the CRC, the checks of inlet frames (R20, R188), and the checks of inbound
frames (R146, R190). -/

namespace Sys2Proof.Machine

/-! ### The CRC (R187) -/

/-- One shift of the CRC register. -/
def crcBit (r : BitVec 16) : BitVec 16 :=
  if r.msb then (r <<< 1) ^^^ 0x1021 else r <<< 1

/-- One byte enters the high half of the register, and eight shifts follow. -/
def crcByte (r : BitVec 16) (b : Byte) : BitVec 16 :=
  Nat.repeat crcBit 8 (r ^^^ (b.setWidth 16 <<< 8))

/-- The CRC-16 of R187: register start 0xFFFF, polynomial 0x1021, not reflected, not inverted. -/
def crc16 (bytes : List Byte) : BitVec 16 :=
  bytes.foldl crcByte 0xFFFF

/-- The bytes the CRC covers: kind, length and payload. -/
def frameCrc (kind : Byte) (payload : List Byte) : BitVec 16 :=
  crc16 (kind :: BitVec.ofNat 8 payload.length :: payload)

/-- Check 1 of R20 and of R146. -/
def crcMatches (f : RawFrame) : Bool :=
  f.crc == frameCrc f.kind f.payload

/-- The frame of the given kind and payload with its right CRC. -/
def mkFrame (kind : Byte) (payload : List Byte) : RawFrame :=
  { kind := kind, payload := payload, crc := frameCrc kind payload }

/-- Two bytes as one number, most significant byte first (R186). -/
def word16 (hi lo : Byte) : BitVec 16 := hi ++ lo

/-! ### Inlet frames (R20, R188) -/

/-- The sample fields of a Sample payload, two bytes a lane. -/
def sampleFields : List Byte → List (BitVec 16)
  | hi :: lo :: rest => word16 hi lo :: sampleFields rest
  | _ => []

/-- Bits 14–12 of a sample field are 0 (R188). -/
def sampleFieldOk (w : BitVec 16) : Bool := w.extractLsb' 12 3 == 0

/-- A sample field's value and overrange mark (R188). -/
def toSample (w : BitVec 16) : Sample :=
  { value := w.extractLsb' 0 12, overrange := w.msb }

/-- Why an inlet frame is discarded: the five checks of R20, in their order. -/
inductive InletDiscard where
  | crc | kind | laneCount | length | sampleForm
  deriving DecidableEq, Repr

/-- The checks of R20: the well-formed frame, or the first check that fails. A payload too short to hold the lane
count field holds no lane count of 1–16. -/
def checkSample (f : RawFrame) : Except InletDiscard SampleFrame :=
  if !crcMatches f then .error .crc
  else if f.kind != Config.kindSample then .error .kind
  else match f.payload with
    | source :: sequence :: lanes :: rest =>
      if lanes.toNat < 1 || 16 < lanes.toNat then .error .laneCount
      else if rest.length != 2 * lanes.toNat then .error .length
      else if !(sampleFields rest).all sampleFieldOk then .error .sampleForm
      else .ok { source := source, sequence := sequence, samples := (sampleFields rest).map toSample }
    | _ => .error .laneCount

/-! ### Inbound frames (R146, R190) -/

/-- The three fields of an Ack Frame. -/
structure AckFields where
  ack : BitVec 6
  grant : Nat
  resend : Bool
  deriving DecidableEq, Repr

/-- Why an inbound frame is discarded: the four checks of R146, in their order. -/
inductive InboundError where
  | crc | kind | ackLength | requestHeader
  deriving DecidableEq, Repr

/-- What an inbound frame is found to be. -/
inductive Inbound where
  | ack (a : AckFields)
  | request (tag command : Byte) (params : List Byte)
  | discard (reason : InboundError)
  deriving DecidableEq, Repr

/-- The Ack payload (R190): two bytes; byte 0 bit 6 and byte 1 bits 7–4 are 0. -/
def parseAck (payload : List Byte) : Option AckFields :=
  match payload with
  | [b0, b1] =>
    if b0.getLsbD 6 || b1.extractLsb' 4 4 != 0 then none
    else some { ack := b0.extractLsb' 0 6, grant := (b1.extractLsb' 0 4).toNat, resend := b0.msb }
  | _ => none

/-- The checks of R146. -/
def checkInbound (f : RawFrame) : Inbound :=
  if !crcMatches f then .discard .crc
  else if f.kind == Config.kindAck then
    match parseAck f.payload with
    | some a => .ack a
    | none => .discard .ackLength
  else if f.kind == Config.kindRequest then
    match f.payload with
    | tag :: command :: params => .request tag command params
    | _ => .discard .requestHeader
  else .discard .kind

/-- The Ack Frame that carries the given fields (R190). -/
def mkAck (ack : BitVec 6) (grant : BitVec 4) (resend : Bool) : RawFrame :=
  mkFrame Config.kindAck [BitVec.ofBool resend ++ (0 : BitVec 1) ++ ack, (0 : BitVec 4) ++ grant]

/-- The Request Frame that carries the given request (R190). -/
def mkRequest (tag command : Byte) (params : List Byte) : RawFrame :=
  mkFrame Config.kindRequest (tag :: command :: params)

/-- The payload of a Sample Frame and of a Mirror Frame (R188). -/
def samplePayload (m : SampleFrame) : List Byte :=
  m.source :: m.sequence :: BitVec.ofNat 8 m.samples.length ::
    m.samples.flatMap fun x =>
      let w : BitVec 16 := BitVec.ofBool x.overrange ++ (0 : BitVec 3) ++ x.value
      [w.extractLsb' 8 8, w.extractLsb' 0 8]

/-- The Sample Frame that carries the given content (R188). -/
def mkSample (m : SampleFrame) : RawFrame := mkFrame Config.kindSample (samplePayload m)

end Sys2Proof.Machine
end

