-- ==== Sys2Proof/WellFormed.lean ====
section
/-! DEFINITION. Which commands can be on this hardware: the frames they bring in can be spelled on a link, and the frame of
an inbound row is of the class its row names. -/

namespace Sys2Proof

/-- The length byte can give the payload's length (R187). -/
def RawFrame.spellable (f : RawFrame) : Bool := f.payload.length ≤ 255

/-- A command is well formed. Channel numbers, source addresses and causes are in range by their types. -/
def Instr.wellFormed (i : Instr) : Bool :=
  match i with
  | .sampleFrame f => f.spellable
  | .ackFrame f =>
    f.spellable && match Machine.checkInbound f with
      | .ack _ => true
      | _ => false
  | .requestFrame f =>
    f.spellable && match Machine.checkInbound f with
      | .request _ _ _ => true
      | _ => false
  | .inboundDiscard f =>
    f.spellable && match Machine.checkInbound f with
      | .discard _ => true
      | _ => false
  | .powerReset _ | .resetNRelease | .inletTruncation | .silenceTimerExpiry _ | .quietTimerExpiry _
  | .maxActiveExpiry _ | .inboundTruncation | .ackTimerExpiry | .announceTimerExpiry | .holdTimerExpiry
  | .transmissionComplete | .responseFrameSend | .announceFrameSend | .retransmittedFrame | .newEventFrame
  | .mirrorFrameSend | .describe | .setProfile | .getProfile | .setChannel | .getChannel | .rebase | .setRoute
  | .dropRoute | .copyRoutes | .swapRoutes | .swapTaken | .getRoutes | .setAlert | .quietAlert | .readCounters
  | .clearCounters | .resync | .unknownCommand | .timeBaseTick | .inletSyncPair | .inboundSyncPair
  | .restartWithParameters => true

end Sys2Proof
end

