-- ==== Sys2Proof/Decode.lean ====
section
/-! DEFINITION. The command a word of spec/opcode_table.json spells. The table gives no row any bits: a command of this
block is an event on a link, a pin or a timer, and no word stands for it. -/

namespace Sys2Proof

/-- No row of the table gives bits, so no word spells a command (assumption 19). -/
def decodeTableWord (_nbits _w : Nat) : Option Instr := none

end Sys2Proof
end

