-- ==== Sys2Proof/Machine/State.lean ====
section
/-! DEFINITION. The state of the KZ-630, block by block as the manual gives it to the blocks, and its value right after
a power-up. Plain data throughout. -/

namespace Sys2Proof.Machine

/-! ### Reasons a step could stop -/

/-- The manual gives the part no condition in which it stops: a bad frame is discarded and counted (R20, R146), a bad
request is answered (R153), a stalled link waits (R143). So there is no fault, and no command raises one. -/
inductive Fault
  deriving DecidableEq, Repr

/-- The refusals. -/
inductive Refusal where
  /-- A command that has no meaning yet, by its mnemonic. Raised by an arm of `exec` only, and by none now. Safe. -/
  | notModelled (mnemonic : String)
  deriving DecidableEq, Repr

/-! ### Time Base and power -/

/-- Whether a power reset holds the part (R150). -/
inductive Power where
  /-- From a POWER_RESET on, with its cause, until the RESET_N_RELEASE that ends it. -/
  | held (cause : PowerCause)
  | running
  deriving DecidableEq, Repr

/-! ### Channel contexts (chapters 1, 3, 4 and 5) -/

inductive Mode where
  | off | events | values
  deriving DecidableEq, Repr

inductive Polarity where
  | rising | falling
  deriving DecidableEq, Repr

/-- The configuration part of a channel context (R2). `group` is `none` for group 0, `some g` for group g + 1. -/
structure ChannelConfig where
  mode : Mode
  profile : Fin 16
  group : Option (Fin 8)
  polarity : Polarity
  deriving DecidableEq, Repr

/-- An open window (R3). Between commands an open window holds at least one sample, so its extremes are present. -/
structure Window where
  latched : Nat
  fill : Nat
  sum : Nat
  minimum : Nat
  maximum : Nat
  overrange : Bool
  deriving DecidableEq, Repr

/-- The window part (R3). While no window is open, `openWin` is `none`: latched length and extremes absent, fill count
and sum 0, overrange flag false. -/
structure WindowPart where
  openWin : Option Window
  tier : Tier
  lastRate : Nat
  lastMean : Option Nat
  deriving DecidableEq, Repr

/-- The seven states of a channel (R63). -/
inductive ChanState where
  | off | settling | idle | pending | active | noisy | silent
  deriving DecidableEq, Repr

/-- Why a channel last entered SETTLING (R93). -/
inductive CaptureCause where
  | settle | forced | stuck
  deriving DecidableEq, Repr

/-- The state part of a channel context (R4). -/
structure RunPart where
  state : ChanState
  engaged : Bool
  confirm : Nat
  rejectRun : Nat
  baseline : Option Nat
  cause : CaptureCause
  maxActive : Timer
  quiet : Timer
  lastValue : Option Nat
  deriving DecidableEq, Repr

/-- A channel context, less its delivery part, which the Event Unit holds (`Events.delivery`), and its counter part,
which the Counter Bank holds (`CounterBank.windows`), each under the same channel number (R1). -/
structure Channel where
  config : ChannelConfig
  window : WindowPart
  run : RunPart
  deriving DecidableEq, Repr

/-- A group (R11). -/
structure Group where
  tier : Tier
  members : Nat
  deriving DecidableEq, Repr

/-- A profile (R7). Times stay in the units of the manual's table. -/
structure Profile where
  lengths : Vector Nat 5
  b1 : Nat
  b2 : Nat
  b3 : Nat
  b4 : Nat
  fixedTier : Bool
  spreadLimit : Nat
  rejectLimit : Nat
  onset : Nat
  release : Nat
  confirm : Nat
  maxActive : Nat
  driftInterval : Nat
  driftStep : Nat
  reportDelta : Nat
  deriving DecidableEq, Repr

/-! ### Inlet Receiver (chapter 2) -/

/-- The reception states of R19, with the ticks counted since the reception began (at most 2 are told apart). -/
inductive Reception where
  | hunting
  | receiving (ticks : Nat)
  deriving DecidableEq, Repr

/-- A SWAP_ROUTES that has been handed to the Inlet Receiver and has not been taken (R37). -/
inductive SwapState where
  | none
  /-- It waits for the frame in reception to end. -/
  | waiting
  /-- That frame has ended, and the swap is to be taken before any later frame is handled. -/
  | due
  deriving DecidableEq, Repr

/-- The five configuration fields of a Route Table entry (R21). -/
structure Route where
  source : Byte
  base : ChanNo
  lanes : Nat
  mirror : Bool
  silence : Nat
  deriving DecidableEq, Repr

/-- The four tracking fields of an active entry (R22). -/
structure Tracking where
  synced : Bool
  expected : Byte
  timer : Timer
  silent : Bool
  deriving DecidableEq, Repr

structure ActiveRoute where
  route : Route
  track : Tracking
  deriving DecidableEq, Repr

/-- The Inlet Receiver's state (R41). Each bank is listed by ascending source (assumption 12). -/
structure Inlet where
  reception : Reception
  swap : SwapState
  active : List ActiveRoute
  shadow : List Route
  deriving DecidableEq, Repr

/-! ### Event Unit (chapter 6) -/

/-- The six reasons of a RELEASE (R65). -/
inductive ReleaseReason where
  | normal | stuck | silent | stopped | unrouted | rebase
  deriving DecidableEq, Repr

/-- The ten record kinds with the fields each carries (R103). -/
inductive RecordKind where
  | onset (value baseline : Nat)
  | release (reason : ReleaseReason) (value : Option Nat)
  | value (value : Nat) (tier : Tier)
  | stuck (value : Nat)
  | noisy (spread : Nat)
  | clear (value : Nat)
  | silent
  | resumed
  | gap (missing : Nat)
  | rebase (baseline : Nat) (cause : CaptureCause)
  deriving DecidableEq, Repr

/-- An Event Record (R102). -/
structure Record where
  kind : RecordKind
  channel : ChanNo
  time : Tick
  loss : Nat
  deriving DecidableEq, Repr

/-- A staged value (R108). -/
structure Staged where
  value : Nat
  tier : Tier
  time : Tick
  deriving DecidableEq, Repr

/-- The delivery part of a channel context (R5). -/
structure Delivery where
  held : List Record
  pendingLoss : Nat
  inFlight : Bool
  staged : Option Staged
  deriving DecidableEq, Repr

/-- The Event Unit's collections: the Event Queue (R105), the Deferred list (R107), each channel's delivery part. -/
structure Events where
  queue : List Record
  deferred : List ChanNo
  delivery : Vector Delivery 64
  deriving DecidableEq, Repr

/-! ### Outlet Link Controller (chapter 7) -/

inductive LinkState where
  | down | up | stalled
  deriving DecidableEq, Repr

/-- The reset cause with the tag it carries (R127). -/
inductive ResetCause where
  | power
  | pin
  | restart (tag : Byte)
  | resync (tag : Byte)
  deriving DecidableEq, Repr

/-- An Event Frame (R134, R135). -/
structure EventFrame where
  seq : BitVec 6
  records : List Record
  deriving DecidableEq, Repr

/-- The nine statuses of a response (R153). -/
inductive Status where
  | ok | busy | tagInUse | badCommand | badLength | badValue | badState | notFound | full
  deriving DecidableEq, Repr

/-- A Response Frame's five parts (R152). -/
structure Response where
  tag : Byte
  command : Byte
  status : Status
  replayed : Bool
  data : List Byte
  deriving DecidableEq, Repr

/-- A frame of the outbound lane, its contents fixed when its transmission begins (R130). -/
inductive OutFrame where
  | response (r : Response)
  | announce (cause : ResetCause) (tick : Tick)
  | event (f : EventFrame)
  | mirror (m : SampleFrame)
  deriving DecidableEq, Repr

/-- The Outlet Link Controller's state (R150). -/
structure Link where
  state : LinkState
  resetCause : ResetCause
  credits : Nat
  nextSeq : BitVec 6
  /-- The Replay Buffer, oldest first. -/
  replay : List EventFrame
  roundCount : Nat
  /-- How many of the newest buffered frames the round in progress has still to resend; 0 when no round is in
  progress (R140; assumption 20). -/
  roundLeft : Nat
  ackTimer : Timer
  announceTimer : Timer
  announceDue : Bool
  /-- The Mirror Buffer, oldest first. -/
  mirror : List SampleFrame
  /-- Reception of the inbound lane (R146). -/
  reception : Reception
  /-- The frame in transmission; `none` while the lane is free. -/
  lane : Option OutFrame
  /-- The tag of the RESYNC whose response is in transmission, so that the link enters DOWN when it completes (R148). -/
  laneResync : Option Byte
  deriving DecidableEq, Repr

/-! ### Management Unit (chapter 8) -/

/-- A request (R151). -/
structure Request where
  tag : Byte
  command : Byte
  params : List Byte
  deriving DecidableEq, Repr

/-- A Response Cache entry (R154). -/
structure CacheEntry where
  tag : Byte
  command : Byte
  status : Status
  data : List Byte
  deriving DecidableEq, Repr

/-- The Management Unit's collections (R154). The head of `requests` is the request executing, when one is. -/
structure Mgmt where
  requests : List Request
  responses : List Response
  cache : List CacheEntry
  deriving DecidableEq, Repr

/-! ### Alert Unit and Counter Bank (chapter 9) -/

inductive AlertMode where
  | off | pulse | latch
  deriving DecidableEq, Repr

inductive Cause where
  | stuck | noisy | silent | gap | loss | stall
  deriving DecidableEq, Repr

/-- The cause set, a mark for each cause (R177). -/
structure CauseSet where
  stuck : Bool
  noisy : Bool
  silent : Bool
  gap : Bool
  loss : Bool
  stall : Bool
  deriving DecidableEq, Repr

/-- The Alert Unit's state (R177). `line` is true while ALERT is asserted. -/
structure Alert where
  mode : AlertMode
  hold : Nat
  line : Bool
  holdTimer : Timer
  causes : CauseSet
  deriving DecidableEq, Repr

/-- The global counters, in the order of the table of R182. -/
inductive GlobalCounter where
  | inletTaken | inletDiscards | unrouted | stale | gaps | laneMismatches | recordsCreated | heldDiscards
  | resyncDiscards | framesSent | retransmitted | stallEntries | mirrorSent | mirrorDiscards | inboundDiscards
  | refusedBusy | discardedUnanswered | cacheReplays
  deriving DecidableEq, Repr

/-- A channel's window counters (R6). -/
structure WindowCounts where
  accepted : Count16
  rejected : Count16
  abandoned : Count16
  deriving DecidableEq, Repr

/-- The Counter Bank (R182). `global` is indexed by the place in the table of R182. -/
structure CounterBank where
  global : Vector Count16 18
  windows : Vector WindowCounts 64
  deriving DecidableEq, Repr

/-! ### The whole part -/

/-- The state of the part, and the queue of the commands that wait. -/
structure State where
  power : Power
  time : Tick
  inlet : Inlet
  channels : Vector Channel 64
  groups : Vector Group 8
  profiles : Vector Profile 16
  events : Events
  link : Link
  mgmt : Mgmt
  alert : Alert
  counters : CounterBank
  /-- The commands that wait, first in, first out: the model's own field. -/
  pending : List Instr
  deriving DecidableEq, Repr

/-! ### Reset values -/

/-- A channel after a power reset (R2, R3, R4). -/
def Channel.initial : Channel where
  config := { mode := .off, profile := 0, group := none, polarity := .rising }
  window := { openWin := none, tier := 0, lastRate := 0, lastMean := none }
  run := { state := .off, engaged := false, confirm := 0, rejectRun := 0, baseline := none, cause := .settle,
           maxActive := none, quiet := none, lastValue := none }

/-- A delivery part after a power reset or a restart (R5). -/
def Delivery.initial : Delivery := { held := [], pendingLoss := 0, inFlight := false, staged := none }

/-- The profile defaults (R7). -/
def Profile.initial : Profile where
  lengths := #v[64, 32, 16, 8, 4]
  b1 := 8
  b2 := 24
  b3 := 60
  b4 := 140
  fixedTier := false
  spreadLimit := 200
  rejectLimit := 4
  onset := 120
  release := 60
  confirm := 2
  maxActive := 200
  driftInterval := 20
  driftStep := 2
  reportDelta := 16

/-- The Event Unit after a power reset or a restart (R125). -/
def Events.initial : Events := { queue := [], deferred := [], delivery := Vector.replicate 64 .initial }

/-- The empty cause set. -/
def CauseSet.empty : CauseSet :=
  { stuck := false, noisy := false, silent := false, gap := false, loss := false, stall := false }

/-- Every counter 0 (R185). -/
def CounterBank.initial : CounterBank :=
  { global := Vector.replicate 18 0, windows := Vector.replicate 64 { accepted := 0, rejected := 0, abandoned := 0 } }

/-- The part while a power reset of the given cause holds it (the power-reset columns of R2–R4, R7, R11, R41, R62,
R101, R125, R150, R154, R177). The announce cycle starts at the release only (R150). The next
sequence number, to which R150 gives no power-reset value, is 0 (the model's choice, assumption 10). -/
def State.heldIn (cause : PowerCause) : State where
  power := .held cause
  time := 0
  inlet := { reception := .hunting, swap := .none, active := [], shadow := [] }
  channels := Vector.replicate 64 .initial
  groups := Vector.replicate 8 { tier := 0, members := 0 }
  profiles := Vector.replicate 16 .initial
  events := .initial
  link :=
    { state := .down
      resetCause := match cause with
        | .power => .power
        | .pin => .pin
      credits := 0, nextSeq := 0, replay := [], roundCount := 0, roundLeft := 0, ackTimer := none,
      announceTimer := none, announceDue := false, mirror := [], reception := .hunting, lane := none,
      laneResync := none }
  mgmt := { requests := [], responses := [], cache := [] }
  alert := { mode := .pulse, hold := 50, line := false, holdTimer := none, causes := .empty }
  counters := .initial
  pending := []

/-- The machine right after reset: power-up has ended, so the part runs, and the link has entered DOWN with cause
POWER, its first Announce Frame due and its announce timer started with 50 ms (R127, R150; assumption 1). -/
def State.reset : State :=
  let s := State.heldIn .power
  { s with power := .running
           link := { s.link with announceTimer := some Config.announceTime, announceDue := true } }

end Sys2Proof.Machine
end

