-- ==== Sys2Proof/Machine/Ops.lean ====
section
/-! DEFINITION. The operations that several commands share: access to tables, counters (chapter 9), alert causes (R178), and
the event path (chapter 6). -/

namespace Sys2Proof.Machine

/-! ### Tables -/

/-- Apply `f` to every entry of a table. -/
def vmap {α β : Type} {n : Nat} (f : α → β) (v : Vector α n) : Vector β n :=
  Vector.mk (v.toList.map f).toArray (by simp)

/-- Channel numbers in ascending order. -/
def allChannels : List ChanNo := List.finRange 64

def State.chan (s : State) (c : ChanNo) : Channel := s.channels[c]

def State.setChan (s : State) (c : ChanNo) (ch : Channel) : State :=
  { s with channels := s.channels.set c ch }

def State.modRun (s : State) (c : ChanNo) (f : RunPart → RunPart) : State :=
  s.setChan c { s.chan c with run := f (s.chan c).run }

def State.modWindow (s : State) (c : ChanNo) (f : WindowPart → WindowPart) : State :=
  s.setChan c { s.chan c with window := f (s.chan c).window }

def State.modConfig (s : State) (c : ChanNo) (f : ChannelConfig → ChannelConfig) : State :=
  s.setChan c { s.chan c with config := f (s.chan c).config }

/-- The profile that a channel's configuration names, as it stands (R9). -/
def State.profileOf (s : State) (c : ChanNo) : Profile := s.profiles[(s.chan c).config.profile]

/-- A running channel: its mode is EVENTS or VALUES (R2). -/
def Channel.running (ch : Channel) : Bool := ch.config.mode != .off

/-! ### Power (R150): while a power reset holds the part, no event of any block occurs -/

def State.whileOn (s : State) (effect : State → State) : State :=
  match s.power with
  | .running => effect s
  | .held _ => s

/-! ### Counters (R182) -/

/-- A counter's place in the table of R182. -/
def GlobalCounter.idx : GlobalCounter → Fin 18
  | .inletTaken => 0
  | .inletDiscards => 1
  | .unrouted => 2
  | .stale => 3
  | .gaps => 4
  | .laneMismatches => 5
  | .recordsCreated => 6
  | .heldDiscards => 7
  | .resyncDiscards => 8
  | .framesSent => 9
  | .retransmitted => 10
  | .stallEntries => 11
  | .mirrorSent => 12
  | .mirrorDiscards => 13
  | .inboundDiscards => 14
  | .refusedBusy => 15
  | .discardedUnanswered => 16
  | .cacheReplays => 17

/-- A raise by `n`, stopping at 65535 (R182). -/
def satAdd (c : Count16) (n : Nat) : Count16 :=
  if c.toNat + n < 65535 then BitVec.ofNat 16 (c.toNat + n) else 65535

def CounterBank.get (b : CounterBank) (k : GlobalCounter) : Count16 := b.global[k.idx]

def CounterBank.raiseBy (b : CounterBank) (k : GlobalCounter) (n : Nat) : CounterBank :=
  { b with global := b.global.set k.idx (satAdd (b.get k) n) }

def CounterBank.modWindows (b : CounterBank) (c : ChanNo) (f : WindowCounts → WindowCounts) : CounterBank :=
  { b with windows := b.windows.set c (f b.windows[c]) }

def State.raiseBy (s : State) (k : GlobalCounter) (n : Nat) : State :=
  { s with counters := s.counters.raiseBy k n }

def State.raise (s : State) (k : GlobalCounter) : State := s.raiseBy k 1

/-- A raise of one window counter of one channel (R61). -/
def State.raiseWindows (s : State) (c : ChanNo) (f : WindowCounts → WindowCounts) : State :=
  { s with counters := s.counters.modWindows c f }

def WindowCounts.accept (w : WindowCounts) : WindowCounts := { w with accepted := satAdd w.accepted 1 }
def WindowCounts.reject (w : WindowCounts) : WindowCounts := { w with rejected := satAdd w.rejected 1 }
def WindowCounts.abandon (w : WindowCounts) : WindowCounts := { w with abandoned := satAdd w.abandoned 1 }

/-! ### Timers -/

/-- One tick: a running timer counts down one millisecond; one that has run out waits for its expiry to be taken. -/
def tickTimer (t : Timer) : Timer := t.map (· - 1)

/-- The timer has run out, and its expiry is due (assumption 3). -/
def timerExpired (t : Timer) : Bool := t == some 0

/-! ### Alert causes (R178) -/

def CauseSet.insert (x : CauseSet) : Cause → CauseSet
  | .stuck => { x with stuck := true }
  | .noisy => { x with noisy := true }
  | .silent => { x with silent := true }
  | .gap => { x with gap := true }
  | .loss => { x with loss := true }
  | .stall => { x with stall := true }

def CauseSet.has (x : CauseSet) : Cause → Bool
  | .stuck => x.stuck
  | .noisy => x.noisy
  | .silent => x.silent
  | .gap => x.gap
  | .loss => x.loss
  | .stall => x.stall

/-- A cause is reported: it joins the set, and the line goes by the mode (R178). -/
def Alert.report (a : Alert) (cause : Cause) : Alert :=
  let a := { a with causes := a.causes.insert cause }
  match a.mode with
  | .pulse => { a with line := true, holdTimer := some a.hold }
  | .latch => { a with line := true }
  | .off => a

def State.report (s : State) (cause : Cause) : State := { s with alert := s.alert.report cause }

/-! ### Event Records (R102–R104) -/

def Record.isValue (r : Record) : Bool :=
  match r.kind with
  | .value _ _ => true
  | _ => false

/-- The record is a VALUE of channel `c`. -/
def Record.isValueOf (c : ChanNo) (r : Record) : Bool := r.isValue && r.channel == c

/-- The alert cause of an urgent kind (R104). -/
def RecordKind.urgent : RecordKind → Option Cause
  | .stuck _ => some .stuck
  | .noisy _ => some .noisy
  | .silent => some .silent
  | .gap _ => some .gap
  | .onset _ _ | .release _ _ | .value _ _ | .clear _ | .resumed | .rebase _ _ => none

/-! ### Record entry (R109–R114) -/

def Events.del (e : Events) (c : ChanNo) : Delivery := e.delivery[c]

def Events.setDel (e : Events) (c : ChanNo) (d : Delivery) : Events :=
  { e with delivery := e.delivery.set c d }

/-- The VALUE of the new record's channel takes the new value, tier and time; place and loss stay (R110, R111). -/
def coalesceIn (new : Record) (l : List Record) : List Record :=
  l.map fun r => if r.isValueOf new.channel then { r with kind := new.kind, time := new.time } else r

/-- How the Event Unit takes a record: the cases of R109, case 4 split by what R113 does. -/
inductive EntryCase where
  | coalesceQueued
  | coalesceHeld
  | stage (value : Nat) (tier : Tier)
  | append
  | discard
  | enqueue
  | hold
  deriving DecidableEq, Repr

/-- Cases 4 to 6 of R109. -/
def Events.lateCase (e : Events) (c : ChanNo) : EntryCase :=
  if (e.del c).held ≠ [] then
    if (e.del c).held.length < Config.heldCapacity then .append else .discard
  else if e.queue.length < Config.queueCapacity then .enqueue
  else .hold

/-- The first case of R109 that applies. -/
def Events.entryCase (e : Events) (r : Record) : EntryCase :=
  match r.kind with
  | .value v t =>
    if e.queue.any (Record.isValueOf r.channel) then .coalesceQueued
    else if (e.del r.channel).held.any (Record.isValueOf r.channel) then .coalesceHeld
    else if (e.del r.channel).inFlight then .stage v t
    else e.lateCase r.channel
  | _ => e.lateCase r.channel

/-- A record enters the Event Queue at its tail with its channel's pending loss (R114). -/
def Events.enqueue (e : Events) (r : Record) : Events :=
  { e with
    queue := e.queue ++ [{ r with loss := (e.del r.channel).pendingLoss }]
    delivery := e.delivery.set r.channel { e.del r.channel with pendingLoss := 0 } }

/-- The Event Unit takes a record (R109). -/
def Events.enter (e : Events) (r : Record) : Events :=
  let d := e.del r.channel
  match e.entryCase r with
  | .coalesceQueued => { e with queue := coalesceIn r e.queue }
  | .coalesceHeld => e.setDel r.channel { d with held := coalesceIn r d.held }
  | .stage v t => e.setDel r.channel { d with staged := some { value := v, tier := t, time := r.time } }
  | .append => e.setDel r.channel { d with held := d.held ++ [r] }
  | .discard => e.setDel r.channel { d with pendingLoss := min (d.pendingLoss + 1) Config.lossMax }
  | .enqueue => e.enqueue r
  | .hold => { e.setDel r.channel { d with held := [r] } with deferred := e.deferred ++ [r.channel] }

/-- Record entry with what a discard adds: its counter and the LOSS report (R113). -/
def State.enterRecord (s : State) (r : Record) : State :=
  let t := { s with events := s.events.enter r }
  if s.events.entryCase r = .discard then (t.raise .heldDiscards).report .loss else t

/-- A producer hands the Event Unit a record of channel `c`, stamped with the tick: it is counted (R102), an urgent kind
is reported (R104), and the record is entered (R109). Its loss field is filled in at the Event Queue (R113, R114); until then
it holds 0, the model's choice (assumption 21). -/
def State.hand (s : State) (c : ChanNo) (k : RecordKind) : State :=
  let s := s.raise .recordsCreated
  let s := match k.urgent with
    | some cause => s.report cause
    | none => s
  s.enterRecord { kind := k, channel := c, time := s.time, loss := 0 }

/-! ### Taking records for a frame (R117, R118) -/

/-- The value-in-flight flags of the VALUE records taken are set (R117 step 2). -/
def Events.setFlags (e : Events) (taken : List Record) : Events :=
  taken.foldl (fun e r => if r.isValue then e.setDel r.channel { e.del r.channel with inFlight := true } else e) e

/-- One freed slot is served: the head channel of the Deferred list gives up its oldest held record (R118). -/
def Events.serveSlot (e : Events) : Events :=
  match e.deferred with
  | [] => e
  | c :: waiting =>
    match (e.del c).held with
    | [] => { e with deferred := waiting }
    | r :: rest =>
      let e := (e.setDel c { e.del c with held := rest }).enqueue r
      { e with deferred := if rest = [] then waiting else waiting ++ [c] }

/-- `k` freed slots are served, one at a time. -/
def Events.serve : Nat → Events → Events
  | 0, e => e
  | k + 1, e => Events.serve k e.serveSlot

/-- The records the next Event Frame takes (R117). -/
def Events.head (e : Events) : List Record := e.queue.take Config.recordsPerFrame

/-- The Event Unit's side of a take (R117). -/
def Events.take (e : Events) : Events :=
  let e' := { e with queue := e.queue.drop Config.recordsPerFrame }
  Events.serve e.head.length (e'.setFlags e.head)

/-! ### Acknowledgement and resync (R120, R122) -/

/-- A staged value becomes a VALUE record and is entered; it is not counted as created (R120 steps 2 and 3, R102). Its loss
field holds 0 until the Event Queue fills it in (assumption 21). -/
def State.releaseStaged (s : State) (c : ChanNo) : State :=
  match (s.events.del c).staged with
  | none => s
  | some v =>
    let s := { s with events := s.events.setDel c { s.events.del c with staged := none } }
    s.enterRecord { kind := .value v.value v.tier, channel := c, time := v.time, loss := 0 }

/-- A record of an acknowledged frame: for a VALUE, its channel's flag is cleared and its staged value released (R120). -/
def State.recordDelivered (s : State) (r : Record) : State :=
  if r.isValue then
    State.releaseStaged
      { s with events := s.events.setDel r.channel { s.events.del r.channel with inFlight := false } } r.channel
  else s

/-- The Event Unit is told of removed frames, oldest first (R120). -/
def State.framesDelivered (s : State) (frames : List EventFrame) : State :=
  (frames.flatMap (·.records)).foldl State.recordDelivered s

/-- Every value-in-flight flag is cleared (R122 step 2). -/
def Events.clearFlags (e : Events) : Events :=
  { e with delivery := vmap (fun d => { d with inFlight := false }) e.delivery }

/-- The Event Unit takes a resync that discards `frames` (R122). -/
def State.resyncEvents (s : State) (frames : List EventFrame) : State :=
  let s := s.raiseBy .resyncDiscards (frames.flatMap (·.records)).length
  allChannels.foldl State.releaseStaged { s with events := s.events.clearFlags }

end Sys2Proof.Machine
end

