-- ==== Sys2Proof/Machine/Channels.lean ====
section
/-! DEFINITION. What the Window Engine (chapter 3), Channel Logic (chapter 4) and the Baseline Tracker (chapter 5) do to
one channel: the operations that inlet frames, timers, route events and requests share. -/

namespace Sys2Proof.Machine

/-! ### Entering states -/

/-- The quiet timer's time (R96), or the max-active timer's (R78): units of 100 ms. -/
def tenths (n : Nat) : Nat := n * 100

/-- Entry into IDLE: the quiet timer starts with the drift interval read now (R77), the confirm count is 0 (R66). -/
def State.enterIdle (s : State) (c : ChanNo) : State :=
  s.modRun c fun r => { r with state := .idle, confirm := 0, quiet := some (tenths (s.profileOf c).driftInterval) }

/-- The Window Engine is told of an entry into SETTLING or OFF (R60). -/
def State.forgetMean (s : State) (c : ChanNo) : State :=
  s.modWindow c fun w => { w with lastMean := none, lastRate := 0 }

/-- Entry into SETTLING (R67). -/
def State.enterSettling (s : State) (c : ChanNo) (cause : CaptureCause) : State :=
  (s.modRun c fun r =>
    { r with state := .settling, engaged := false, confirm := 0, rejectRun := 0, baseline := none, cause := cause,
             maxActive := none, quiet := none }).forgetMean c

/-- Entry into OFF (R68). -/
def State.enterOff (s : State) (c : ChanNo) : State :=
  (s.modRun c fun r =>
    { r with state := .off, engaged := false, confirm := 0, rejectRun := 0, baseline := none, maxActive := none,
             quiet := none, lastValue := none }).forgetMean c

/-- The window of a channel is abandoned, if one is open (R57). -/
def State.abandon (s : State) (c : ChanNo) : State :=
  match (s.chan c).window.openWin with
  | none => s
  | some _ => (s.modWindow c fun w => { w with openWin := none }).raiseWindows c WindowCounts.abandon

/-- An engaged channel gets its RELEASE, without a value; its flag and its max-active timer end (R65). -/
def State.endEngagement (s : State) (c : ChanNo) (reason : ReleaseReason) : State :=
  if (s.chan c).run.engaged then
    (s.hand c (.release reason none)).modRun c fun r => { r with engaged := false, maxActive := none }
  else s

/-! ### Capture (R91) -/

/-- The baseline is set to the mean, and a REBASE record carries it with the capture cause (R91). -/
def State.capture (s : State) (c : ChanNo) (mean : Nat) : State :=
  (s.modRun c fun r => { r with baseline := some mean }).hand c (.rebase mean (s.chan c).run.cause)

/-! ### Window results (R69–R76) -/

/-- The deviation of a mean from a baseline (R64). -/
def deviation (p : Polarity) (baseline mean : Nat) : Int :=
  match p with
  | .rising => (mean : Int) - baseline
  | .falling => (baseline : Int) - mean

/-- ONSET is created, the channel is engaged and enters ACTIVE, and the max-active timer starts (R71, R72, R75, R78). -/
def State.onset (s : State) (c : ChanNo) (p : Profile) (mean baseline : Nat) : State :=
  (s.hand c (.onset mean baseline)).modRun c fun r =>
    { r with state := .active, engaged := true, confirm := 0, quiet := none
             maxActive := if p.maxActive = 0 then none else some (tenths p.maxActive) }

/-- The `n`th window in a row at or beyond the onset threshold: ONSET once `n` reaches the profile's confirm count,
otherwise PENDING with confirm count `n` (R71, R72, R75). -/
def State.confirmOnset (s : State) (c : ChanNo) (p : Profile) (mean baseline n : Nat) : State :=
  if p.confirm ≤ n then s.onset c p mean baseline
  else s.modRun c fun r => { r with state := .pending, confirm := n, quiet := none }

/-- RELEASE(NORMAL) with the window's mean; the channel enters IDLE (R73, R75). -/
def State.releaseNormal (s : State) (c : ChanNo) (mean : Nat) : State :=
  ((s.hand c (.release .normal (some mean))).modRun c fun r =>
    { r with engaged := false, maxActive := none }).enterIdle c

/-- The first accepted result in NOISY, after its CLEAR (R75). -/
def State.leaveNoisy (s : State) (c : ChanNo) (p : Profile) (mean : Nat) : State :=
  let ch := s.chan c
  match ch.run.baseline with
  | none => (s.capture c mean).enterIdle c
  | some b =>
    let dev := deviation ch.config.polarity b mean
    if ch.run.engaged then
      if dev < p.release then s.releaseNormal c mean
      else s.modRun c fun r => { r with state := .active }
    else if p.onset ≤ dev then s.confirmOnset c p mean b 1
    else s.enterIdle c

/-- An accepted result moves the state (R70–R73, R75). A channel in IDLE, PENDING or ACTIVE has a baseline (R63). -/
def State.acceptedMove (s : State) (c : ChanNo) (p : Profile) (mean : Nat) : State :=
  let ch := s.chan c
  match ch.run.state, ch.run.baseline with
  | .settling, _ => (s.capture c mean).enterIdle c
  | .idle, some b =>
    if p.onset ≤ deviation ch.config.polarity b mean then s.confirmOnset c p mean b 1 else s
  | .pending, some b =>
    if p.onset ≤ deviation ch.config.polarity b mean then s.confirmOnset c p mean b (ch.run.confirm + 1)
    else s.enterIdle c
  | .active, some b =>
    if deviation ch.config.polarity b mean < p.release then s.releaseNormal c mean else s
  | .noisy, _ => (s.hand c (.clear mean)).leaveNoisy c p mean
  | .idle, none | .pending, none | .active, none | .off, _ | .silent, _ => s

/-- The absolute difference of two counts. -/
def absDiff (a b : Nat) : Nat := (a - b) + (b - a)

/-- Whether an accepted result publishes a VALUE, by the channel before the result (R76). -/
def publishes (before : Channel) (p : Profile) (mean : Nat) : Bool :=
  before.config.mode == .values &&
  (before.run.state == .idle || before.run.state == .pending || before.run.state == .active) &&
  match before.run.lastValue with
  | none => true
  | some v => p.reportDelta ≤ absDiff mean v

/-- Channel Logic takes an accepted result (R69). -/
def State.takeAccepted (s : State) (c : ChanNo) (p : Profile) (mean : Nat) (tier : Tier) : State :=
  let t := s.acceptedMove c p mean
  if publishes (s.chan c) p mean then
    (t.hand c (.value mean tier)).modRun c fun r => { r with lastValue := some mean }
  else t

/-- Channel Logic takes a rejected result, the reject run having been raised (R74). -/
def State.takeRejected (s : State) (c : ChanNo) (p : Profile) (spread : Nat) : State :=
  let r := (s.chan c).run
  match r.state with
  | .settling | .idle | .pending | .active =>
    if p.rejectLimit ≤ r.rejectRun then
      (s.hand c (.noisy spread)).modRun c fun r => { r with state := .noisy, confirm := 0, quiet := none }
    else if r.state = .pending then s.enterIdle c
    else s
  | .noisy | .off | .silent => s

/-! ### The Window Engine (chapter 3) -/

/-- A rate's band among the breakpoints (R51). -/
def Profile.tierOf (p : Profile) (rate : Nat) : Tier :=
  if rate < p.b1 then 0
  else if rate < p.b2 then 1
  else if rate < p.b3 then 2
  else if rate < p.b4 then 3
  else 4

/-- The tier in use for the next window of a channel under profile `p` (R44, R56). -/
def State.tierInUse (s : State) (c : ChanNo) (p : Profile) : Tier :=
  if p.fixedTier then 0
  else match (s.chan c).config.group with
    | some g => s.groups[g].tier
    | none => (s.chan c).window.tier

/-- The last rate a channel adds to the group rate of `g` (R53). -/
def Channel.groupShare (ch : Channel) (g : Fin 8) : Nat :=
  if ch.config.group = some g ∧ ch.config.mode ≠ .off then ch.window.lastRate else 0

/-- The group rate (R53). -/
def State.groupRate (s : State) (g : Fin 8) : Nat :=
  min ((s.channels.toList.map (·.groupShare g)).sum) Config.maxCount

/-- Tier selection at an accepted close, the rate having been stored (R51–R53). -/
def State.selectTier (s : State) (c : ChanNo) (p : Profile) (rate : Nat) : State :=
  if p.fixedTier then s
  else match (s.chan c).config.group with
    | none => s.modWindow c fun w => { w with tier := p.tierOf rate }
    | some g => { s with groups := s.groups.set g { s.groups[g] with tier := p.tierOf (s.groupRate g) } }

/-- The rate of an accepted window (R50). -/
def rateOf (lastMean : Option Nat) (mean : Nat) : Nat :=
  match lastMean with
  | none => 0
  | some m => absDiff mean m

/-- A window judged accepted (R49, R50, R56). -/
def State.acceptWindow (s : State) (c : ChanNo) (p : Profile) (mean : Nat) : State :=
  let rate := rateOf (s.chan c).window.lastMean mean
  let s := s.modRun c fun r => { r with rejectRun := 0 }
  let s := s.raiseWindows c WindowCounts.accept
  let s := s.modWindow c fun w => { w with lastRate := rate, lastMean := some mean }
  let s := s.selectTier c p rate
  s.takeAccepted c p mean (s.tierInUse c p)

/-- A window judged rejected (R48). -/
def State.rejectWindow (s : State) (c : ChanNo) (p : Profile) (spread : Nat) : State :=
  let s := s.modRun c fun r => { r with rejectRun := min (r.rejectRun + 1) Config.rejectRunMax }
  (s.raiseWindows c WindowCounts.reject).takeRejected c p spread

def Window.spread (w : Window) : Nat := w.maximum - w.minimum

/-- A full window is judged under one reading of the profile (R47). -/
def Window.rejectedBy (w : Window) (p : Profile) : Bool := w.overrange || p.spreadLimit < w.spread

/-- The mean of a full window, rounded down (R49). -/
def Window.mean (w : Window) : Nat := w.sum / w.latched

/-- A full window closes (R47). -/
def State.closeWindow (s : State) (c : ChanNo) (w : Window) : State :=
  let p := s.profileOf c
  let s := s.modWindow c fun x => { x with openWin := none }
  if w.rejectedBy p then s.rejectWindow c p w.spread else s.acceptWindow c p w.mean

/-- The value a sample enters with: an overrange sample counts as 4095 (R46). -/
def sampleCount (x : Sample) : Nat := if x.overrange then Config.maxCount else x.value.toNat

/-- A window opens with its first sample (R43, R45). -/
def Window.openWith (latched : Nat) (x : Sample) : Window :=
  { latched := latched, fill := 1, sum := sampleCount x, minimum := sampleCount x, maximum := sampleCount x,
    overrange := x.overrange }

/-- A further sample is accumulated (R45, R46). -/
def Window.accumulate (w : Window) (x : Sample) : Window :=
  { w with fill := w.fill + 1, sum := w.sum + sampleCount x, minimum := min w.minimum (sampleCount x),
           maximum := max w.maximum (sampleCount x), overrange := w.overrange || x.overrange }

/-- The channel's window once it holds the sample: the open one, or one that opens now at the tier in use (R43–R45). -/
def State.windowWith (s : State) (c : ChanNo) (x : Sample) : Window :=
  match (s.chan c).window.openWin with
  | some w => w.accumulate x
  | none => Window.openWith (s.profileOf c).lengths[s.tierInUse c (s.profileOf c)] x

/-- The states in which a sample is taken (R42). -/
def ChanState.takesSamples : ChanState → Bool
  | .settling | .idle | .pending | .active | .noisy => true
  | .off | .silent => false

/-- A sample is delivered for a channel, and handled whole (R42). -/
def State.deliverSample (s : State) (c : ChanNo) (x : Sample) : State :=
  if (s.chan c).run.state.takesSamples then
    let w := s.windowWith c x
    if w.fill < w.latched then s.modWindow c fun part => { part with openWin := some w }
    else s.closeWindow c w
  else s

/-! ### Route events (R81–R83) -/

/-- A silence event reaches a running channel (R30, R81). -/
def State.silenceEvent (s : State) (c : ChanNo) : State :=
  if (s.chan c).running then
    (((s.abandon c).endEngagement c .silent).hand c .silent).modRun c fun r =>
      { r with state := .silent, quiet := none, confirm := 0, rejectRun := 0 }
  else s

/-- A resume event reaches a channel in SILENT (R31, R82). -/
def State.resumeEvent (s : State) (c : ChanNo) : State :=
  if (s.chan c).run.state = .silent then
    let s := s.hand c .resumed
    match (s.chan c).run.baseline with
    | some _ => s.enterIdle c
    | none => s.enterSettling c .settle
  else s

/-- An unroute event reaches a running channel (R39, R83). -/
def State.unrouteEvent (s : State) (c : ChanNo) : State :=
  if (s.chan c).running then ((s.abandon c).endEngagement c .unrouted).enterSettling c .settle else s

/-! ### Timer expiries and REBASE -/

/-- One drift step: toward the mean by at most `step` (R97). -/
def driftToward (step baseline mean : Nat) : Nat :=
  if baseline ≤ mean then baseline + min step (mean - baseline) else baseline - min step (baseline - mean)

/-- A quiet-timer expiry (R97). In IDLE baseline and last accepted mean are both present (R90). -/
def State.driftStep (s : State) (c : ChanNo) : State :=
  let p := s.profileOf c
  s.modRun c fun r =>
    { r with
      baseline := match r.baseline, (s.chan c).window.lastMean with
        | some b, some m => some (driftToward p.driftStep b m)
        | b, _ => b
      quiet := some (tenths p.driftInterval) }

/-- A max-active expiry of an engaged channel (R79). The STUCK record carries the last accepted mean, which an engaged
channel always holds; where it were absent, the field would read 0 (assumption 14). -/
def State.stuckExpiry (s : State) (c : ChanNo) : State :=
  let s := s.abandon c
  let s := s.hand c (.stuck ((s.chan c).window.lastMean.getD 0))
  (s.endEngagement c .stuck).enterSettling c .stuck

/-- A REBASE request on a running channel (R84). -/
def State.forceSettling (s : State) (c : ChanNo) : State :=
  ((s.abandon c).endEngagement c .rebase).enterSettling c .forced

/-! ### SET_CHANNEL (R12, R16, R85–R88) -/

/-- A channel leaves a group (R12). -/
def State.leaveGroup (s : State) (c : ChanNo) (g : Fin 8) : State :=
  let old := s.groups[g]
  let s := s.modWindow c fun w => { w with tier := old.tier }
  let left : Group := { members := old.members - 1, tier := if old.members - 1 = 0 then 0 else old.tier }
  { s with groups := s.groups.set g left }

/-- A channel joins a group (R12). -/
def State.joinGroup (s : State) (g : Fin 8) : State :=
  { s with groups := s.groups.set g { s.groups[g] with members := s.groups[g].members + 1 } }

/-- The Group Table follows a change of a channel's group from `old` to `new` (R12). -/
def State.changeGroup (s : State) (c : ChanNo) (old new : Option (Fin 8)) : State :=
  if old = new then s
  else
    let s := match old with
      | some g => s.leaveGroup c g
      | none => s
    match new with
    | some h => s.joinGroup h
    | none => s

/-- What a SET_CHANNEL does to the state part, by the modes before and after and the polarity (the cases of R16). -/
def State.applyModeChange (s : State) (c : ChanNo) (old new : ChannelConfig) : State :=
  if old.mode = .off then
    if new.mode = .off then s else s.enterSettling c .settle
  else if new.mode = .off then ((s.abandon c).endEngagement c .stopped).enterOff c
  else if old.polarity ≠ new.polarity then ((s.abandon c).endEngagement c .rebase).enterSettling c .settle
  else s

/-- An accepted SET_CHANNEL (R16): the fields are stored, the Group Table follows, and the case applies. -/
def State.setConfig (s : State) (c : ChanNo) (new : ChannelConfig) : State :=
  let old := (s.chan c).config
  ((s.modConfig c fun _ => new).changeGroup c old.group new.group).applyModeChange c old new

end Sys2Proof.Machine
end

