-- ==== Sys2Proof/Machine/Operands.lean ====
section
/-! DEFINITION. The parameter blocks of requests (R191): how each is read, and the checks whose failure is answered
BAD_VALUE. A block of the wrong length is told apart first, since its owner answers BAD_LENGTH before it reads a field
(R162). -/

namespace Sys2Proof.Machine

/-! ### Numbers in a parameter block (R186) -/

/-- The byte at an offset, as a number. -/
def byteAt (p : List Byte) (i : Nat) : Nat := (p.getD i 0).toNat

/-- The byte pair at an offset, most significant byte first, as a number. -/
def wordAt (p : List Byte) (i : Nat) : Nat := byteAt p i * 256 + byteAt p (i + 1)

/-- A number below `n`, as a `Fin`. -/
def toFin (n : Nat) (k : Nat) : Option (Fin n) :=
  if h : k < n then some ⟨k, h⟩ else none

/-- The channel a byte names, when it lies in 0–63. -/
def channelOf (b : Byte) : Option ChanNo := toFin 64 b.toNat

/-! ### The codes of R191 -/

def modeOf (b : Byte) : Option Mode :=
  if b = 0 then some .off else if b = 1 then some .events else if b = 2 then some .values else none

def polarityOf (b : Byte) : Option Polarity :=
  if b = 0 then some .rising else if b = 1 then some .falling else none

/-- The codes of fixed tier and mirror flag: off 0, on 1. -/
def flagOf (b : Byte) : Option Bool :=
  if b = 0 then some false else if b = 1 then some true else none

/-- A group byte: 0 names no group, 1–8 a group, any other is out of range. -/
def groupOf (b : Byte) : Option (Option (Fin 8)) :=
  if b = 0 then some none else (toFin 8 (b.toNat - 1)).map some

def alertModeOf (b : Byte) : Option AlertMode :=
  if b = 0 then some .off else if b = 1 then some .pulse else if b = 2 then some .latch else none

/-- A bank selector. -/
inductive Bank where
  | active | shadow
  deriving DecidableEq, Repr

def bankOf (b : Byte) : Option Bank :=
  if b = 0 then some .active else if b = 1 then some .shadow else none

/-- A counter set (R184). -/
inductive CounterSet where
  | global
  | channel (c : ChanNo)
  deriving DecidableEq, Repr

/-- A set kind and its channel byte; for GLOBAL the channel byte is not read (R191). -/
def counterSetOf (kind channel : Byte) : Option CounterSet :=
  if kind = 0 then some .global
  else if kind = 1 then (channelOf channel).map .channel
  else none

/-! ### SET_PROFILE (R13) -/

/-- The length of the profile block. -/
def profileBlockLength : Nat := 28

/-- The conditions of R7 and R8 on a profile's fields: what R13 checks, field by field. -/
def Profile.valid (p : Profile) : Bool :=
  p.lengths.toList.all (fun l => 1 ≤ l && l ≤ 64) &&
  p.b1 ≤ p.b2 && p.b2 ≤ p.b3 && p.b3 ≤ p.b4 && p.b4 ≤ 4095 &&
  p.spreadLimit ≤ 4095 &&
  1 ≤ p.rejectLimit && p.rejectLimit ≤ 15 &&
  1 ≤ p.onset && p.onset ≤ 4095 &&
  p.release ≤ 4094 && p.release < p.onset &&
  1 ≤ p.confirm && p.confirm ≤ 8 &&
  p.maxActive ≤ 255 &&
  1 ≤ p.driftInterval && p.driftInterval ≤ 255 &&
  p.driftStep ≤ 63 && p.reportDelta ≤ 4095

/-- The fields of a profile block, before their ranges are checked (R191). -/
def profileFields (p : List Byte) (fixedTier : Bool) : Profile where
  lengths := #v[byteAt p 1, byteAt p 2, byteAt p 3, byteAt p 4, byteAt p 5]
  b1 := wordAt p 6
  b2 := wordAt p 8
  b3 := wordAt p 10
  b4 := wordAt p 12
  fixedTier := fixedTier
  spreadLimit := wordAt p 15
  rejectLimit := byteAt p 17
  onset := wordAt p 18
  release := wordAt p 20
  confirm := byteAt p 22
  maxActive := byteAt p 23
  driftInterval := byteAt p 24
  driftStep := byteAt p 25
  reportDelta := wordAt p 26

/-- A profile block of the right length: profile number and fields, or `none` when a check of R13 fails. -/
def parseProfile (p : List Byte) : Option (Fin 16 × Profile) :=
  match toFin 16 (byteAt p 0), flagOf (p.getD 14 0) with
  | some n, some fixed =>
    if (profileFields p fixed).valid then some (n, profileFields p fixed) else none
  | _, _ => none

/-! ### SET_CHANNEL (R16) and SET_ROUTE (R34) -/

/-- The five bytes of SET_CHANNEL: channel, mode, profile, group, polarity. -/
def parseChannelConfig (ch mode profile group polarity : Byte) : Option (ChanNo × ChannelConfig) :=
  match channelOf ch, modeOf mode, toFin 16 profile.toNat, groupOf group, polarityOf polarity with
  | some c, some m, some p, some g, some q => some (c, { mode := m, profile := p, group := g, polarity := q })
  | _, _, _, _, _ => none

/-- The six bytes of SET_ROUTE, with check 2 of R34. -/
def parseRoute (source base lanes mirror hi lo : Byte) : Option Route :=
  match channelOf base, flagOf mirror with
  | some b, some m =>
    if 1 ≤ lanes.toNat ∧ lanes.toNat ≤ 16 ∧ b.val + lanes.toNat ≤ 64 then
      some { source := source, base := b, lanes := lanes.toNat, mirror := m, silence := (word16 hi lo).toNat }
    else none
  | _, _ => none

/-! ### SET_ALERT (R180) -/

/-- Mode and hold; a hold of 0 lies outside 1–255. -/
def parseAlert (mode hold : Byte) : Option (AlertMode × Nat) :=
  match alertModeOf mode with
  | some m => if hold = 0 then none else some (m, hold.toNat)
  | none => none

end Sys2Proof.Machine
end

