-- ==== Sys2Proof/Machine/Flags.lean ====
section
/-! DEFINITION. Codes, flag bytes and data blocks of what the part sends (R186, R189–R192). -/

namespace Sys2Proof.Machine

/-! ### Multi-byte fields, most significant byte first (R186) -/

def be16 (w : BitVec 16) : List Byte := [w.extractLsb' 8 8, w.extractLsb' 0 8]

def be24 (w : BitVec 24) : List Byte := [w.extractLsb' 16 8, w.extractLsb' 8 8, w.extractLsb' 0 8]

/-- A number as one byte. -/
def byteOf (n : Nat) : Byte := BitVec.ofNat 8 n

/-- A number as two bytes. -/
def wordOf (n : Nat) : List Byte := be16 (BitVec.ofNat 16 n)

/-- A flag byte from its bits, bit 0 first. -/
def flagByte (bits : List Bool) : Byte :=
  byteOf (bits.foldr (fun b n => (if b then 1 else 0) + 2 * n) 0)

/-! ### Codes -/

def Status.code : Status → Byte
  | .ok => 0x00
  | .busy => 0x01
  | .tagInUse => 0x02
  | .badCommand => 0x03
  | .badLength => 0x04
  | .badValue => 0x05
  | .badState => 0x06
  | .notFound => 0x07
  | .full => 0x08

/-- The reset cause code and the tag byte of Announce Frame and DESCRIBE (R190). -/
def ResetCause.code : ResetCause → Byte
  | .power => 1
  | .pin => 2
  | .restart _ => 3
  | .resync _ => 4

def ResetCause.tagByte : ResetCause → Byte
  | .power | .pin => 0
  | .restart tag | .resync tag => tag

def Mode.code : Mode → Byte
  | .off => 0
  | .events => 1
  | .values => 2

def Polarity.code : Polarity → Byte
  | .rising => 0
  | .falling => 1

def groupCode : Option (Fin 8) → Byte
  | none => 0
  | some g => byteOf (g.val + 1)

def ChanState.code : ChanState → Byte
  | .off => 0
  | .settling => 1
  | .idle => 2
  | .pending => 3
  | .active => 4
  | .noisy => 5
  | .silent => 6

def ReleaseReason.code : ReleaseReason → Nat
  | .normal => 0
  | .stuck => 1
  | .silent => 2
  | .stopped => 3
  | .unrouted => 4
  | .rebase => 5

def CaptureCause.code : CaptureCause → Nat
  | .settle => 1
  | .forced => 2
  | .stuck => 3

/-- The cause byte of QUIET_ALERT (R192). -/
def CauseSet.byte (x : CauseSet) : Byte := flagByte [x.stuck, x.noisy, x.silent, x.gap, x.loss, x.stall]

/-! ### Data blocks (R192) -/

/-- DESCRIBE: 13 bytes. -/
def describeData (cause : ResetCause) (tick : Tick) : List Byte :=
  be16 Config.partCode ++ [Config.revision, 64, 16, 8, byteOf Config.routeCapacity, byteOf Config.queueCapacity,
    cause.code, cause.tagByte] ++ be24 tick

/-- GET_PROFILE: the profile block of R191. -/
def profileData (n : Fin 16) (p : Profile) : List Byte :=
  byteOf n.val :: p.lengths.toList.map byteOf ++ wordOf p.b1 ++ wordOf p.b2 ++ wordOf p.b3 ++ wordOf p.b4 ++
  [flagByte [p.fixedTier]] ++ wordOf p.spreadLimit ++ [byteOf p.rejectLimit] ++ wordOf p.onset ++ wordOf p.release ++
  [byteOf p.confirm, byteOf p.maxActive, byteOf p.driftInterval, byteOf p.driftStep] ++ wordOf p.reportDelta

/-- The flags byte of the channel snapshot. -/
def snapshotFlags (ch : Channel) (d : Delivery) (deferred : Bool) : Byte :=
  flagByte [ch.run.engaged, ch.run.baseline.isSome, ch.window.lastMean.isSome, ch.window.openWin.isSome, deferred,
    d.staged.isSome, d.inFlight]

/-- GET_CHANNEL: the 24-byte snapshot (R18, R192). Absent fields read 0. -/
def State.snapshot (s : State) (c : ChanNo) : List Byte :=
  let ch := s.chan c
  let d := s.events.del c
  let n := s.counters.windows[c]
  let w := ch.window.openWin
  [byteOf c.val, ch.config.mode.code, byteOf ch.config.profile.val, groupCode ch.config.group, ch.config.polarity.code,
    ch.run.state.code, snapshotFlags ch d (s.events.deferred.contains c)] ++
  wordOf (ch.run.baseline.getD 0) ++ wordOf (ch.window.lastMean.getD 0) ++
  [byteOf (s.tierInUse c (s.profileOf c)).val, byteOf ((w.map (·.latched)).getD 0), byteOf ((w.map (·.fill)).getD 0),
    byteOf ch.run.confirm, byteOf ch.run.rejectRun, byteOf d.held.length, byteOf d.pendingLoss] ++
  be16 n.accepted ++ be16 n.rejected ++ be16 n.abandoned

/-- One entry of GET_ROUTES for a bank without tracking fields. -/
def shadowEntry (r : Route) : List Byte :=
  [r.source, byteOf r.base.val, byteOf r.lanes, flagByte [r.mirror]] ++ wordOf r.silence ++ [0, 0, 0]

/-- One entry of GET_ROUTES for the active bank; an expected sequence reads 0 while unsynchronised (R22). -/
def activeEntry (a : ActiveRoute) : List Byte :=
  [a.route.source, byteOf a.route.base.val, byteOf a.route.lanes,
    flagByte [a.route.mirror, a.track.synced, a.track.silent, a.track.timer.isSome]] ++
  wordOf a.route.silence ++ [if a.track.synced then a.track.expected else 0] ++ wordOf (a.track.timer.getD 0)

/-- GET_ROUTES: the count and the entries in ascending order of source (R40). -/
def State.routesData (s : State) : Bank → List Byte
  | .active => byteOf s.inlet.active.length :: s.inlet.active.flatMap activeEntry
  | .shadow => byteOf s.inlet.shadow.length :: s.inlet.shadow.flatMap shadowEntry

/-- READ_COUNTERS (R184): the global set in the order of R182, or a channel's three. -/
def State.countersData (s : State) : CounterSet → List Byte
  | .global => s.counters.global.toList.flatMap be16
  | .channel c =>
    be16 s.counters.windows[c].accepted ++ be16 s.counters.windows[c].rejected ++ be16 s.counters.windows[c].abandoned

end Sys2Proof.Machine
end

