-- ==== Sys2Proof/Machine/LinkOps.lean ====
section
/-! DEFINITION. The operations of the Outlet Link Controller that several commands share (chapter 7). -/

namespace Sys2Proof.Machine

def State.modLink (s : State) (f : Link → Link) : State := { s with link := f s.link }

/-! ### Reception (R19, R146) -/

/-- A sync pair completes in HUNTING; inside a frame its bytes are frame bytes (R19). -/
def Reception.sync : Reception → Reception
  | .hunting => .receiving 0
  | .receiving n => .receiving n

/-- A tick passes: the watch of a frame in reception counts it. -/
def Reception.tick : Reception → Reception
  | .hunting => .hunting
  | .receiving n => .receiving (min (n + 1) Config.truncationTicks)

/-- Ticks enough for a truncation have passed since the reception began (assumption 7). -/
def Reception.truncates : Reception → Bool
  | .hunting => false
  | .receiving n => Config.truncationTicks ≤ n

/-! ### Entry into DOWN (R127) -/

/-- The link enters DOWN with the given cause (R127). The Replay Buffer is already empty at every entry. -/
def Link.enterDown (l : Link) (cause : ResetCause) : Link :=
  { l with
    state := .down, resetCause := cause, credits := 0, roundCount := 0, roundLeft := 0, ackTimer := none,
    mirror := [], announceDue := true, announceTimer := some Config.announceTime }

/-- The entry into DOWN after a resync: copies found in the Mirror Buffer are counted (R127, R145). -/
def State.enterDownResync (s : State) (tag : Byte) : State :=
  let s := s.raiseBy .mirrorDiscards s.link.mirror.length
  s.modLink fun l => l.enterDown (.resync tag)

/-! ### Ack Frames (R129, R132, R136–R138, R144) -/

/-- A grant is added; a sum above 31 leaves 31 (R132). -/
def Link.grant (l : Link) (n : Nat) : Link := { l with credits := min (l.credits + n) Config.creditMax }

/-- How many of the buffered frames an acknowledge number removes: the named frame and every older one (R136), or none
(R137). -/
def ackedCount (replay : List EventFrame) (ack : BitVec 6) : Nat :=
  match replay.findIdx? (·.seq == ack) with
  | some i => i + 1
  | none => 0

/-- The frames removed are taken out, and a round in progress goes on with those remaining that it has not yet resent. -/
def Link.dropAcked (l : Link) (n : Nat) : Link :=
  { l with replay := l.replay.drop n, roundLeft := min l.roundLeft (l.replay.drop n).length }

/-- The acknowledge number is applied: the Event Unit is told of the removed frames, oldest first (R136, R137). -/
def State.applyAck (s : State) (ack : BitVec 6) : State :=
  let n := ackedCount s.link.replay ack
  (s.modLink (·.dropAcked n)).framesDelivered (s.link.replay.take n)

/-- Progress in UP: the round count is 0, and the ack timer restarts, or stops with an empty buffer (R136). -/
def Link.progress (l : Link) : Link :=
  { l with roundCount := 0, ackTimer := if l.replay = [] then none else some Config.ackTime }

/-- A retransmission round of all buffered frames begins, and the ack timer restarts (R138, R139, R141, R144). -/
def Link.beginRound (l : Link) : Link :=
  { l with roundLeft := l.replay.length, ackTimer := some Config.ackTime }

/-- The passage from DOWN to UP (R128, R129, R133). -/
def Link.comeUp (l : Link) : Link :=
  { l with state := .up, nextSeq := 0, roundCount := 0, announceTimer := none, announceDue := false }

/-- An Ack Frame in DOWN (R129). -/
def State.ackInDown (s : State) (grant : Nat) : State :=
  s.modLink fun l => (l.grant grant).comeUp

/-- An Ack Frame in UP (R136–R138). -/
def State.ackInUp (s : State) (ack : BitVec 6) (grant : Nat) (resend : Bool) : State :=
  let n := ackedCount s.link.replay ack
  let s := s.applyAck ack
  let s := if n = 0 then s else s.modLink Link.progress
  let s := s.modLink (·.grant grant)
  if resend && !s.link.replay.isEmpty then s.modLink Link.beginRound else s

/-- An Ack Frame in STALLED (R144). -/
def State.ackInStalled (s : State) (ack : BitVec 6) (grant : Nat) : State :=
  ((s.applyAck ack).modLink (·.grant grant)).modLink fun l =>
    let l := { l with state := .up, roundCount := 0 }
    if l.replay = [] then { l with ackTimer := none } else l.beginRound

/-- An Ack Frame is applied whole, by the link state (R129, R136, R144). -/
def State.takeAck (s : State) (ack : BitVec 6) (grant : Nat) (resend : Bool) : State :=
  match s.link.state with
  | .down => s.ackInDown grant
  | .up => s.ackInUp ack grant resend
  | .stalled => s.ackInStalled ack grant

/-! ### Stall (R143) -/

/-- The link enters STALLED (R143). -/
def State.stall (s : State) : State :=
  let s := s.raiseBy .mirrorDiscards s.link.mirror.length
  let s := s.modLink fun l => { l with state := .stalled, roundLeft := 0, ackTimer := none, mirror := [] }
  (s.raise .stallEntries).report .stall

/-! ### The outbound lane (R131) -/

/-- The frames that compete for the lane. -/
inductive LaneClass where
  | response | announce | retransmission | event | mirror
  deriving DecidableEq, Repr

/-- The arbiter: the first frame present, by the order of R131, when the lane is free. -/
def State.laneGrant (s : State) : Option LaneClass :=
  let l := s.link
  if l.lane.isSome then none
  else if !s.mgmt.responses.isEmpty then some .response
  else if l.state = .down ∧ l.announceDue then some .announce
  else if 0 < l.roundLeft then some .retransmission
  else if l.state = .up ∧ 1 ≤ l.credits ∧ l.replay.length < Config.replayCapacity ∧ s.events.queue ≠ [] then some .event
  else if l.state = .up ∧ l.mirror ≠ [] then some .mirror
  else none

/-- The lane is granted to a frame, whose transmission begins (R130). -/
def State.transmit (s : State) (f : OutFrame) : State := s.modLink fun l => { l with lane := some f }

/-- The next frame of the round in progress: the oldest buffered frame not yet resent by it (R140). -/
def Link.roundFrame (l : Link) : Option EventFrame := l.replay[l.replay.length - l.roundLeft]?

/-- A new Event Frame is built (R134). -/
def State.buildEvent (s : State) : State :=
  let frame : EventFrame := { seq := s.link.nextSeq, records := s.events.head }
  let s := { s with events := s.events.take }
  let s := s.modLink fun l =>
    { l with
      nextSeq := l.nextSeq + 1, credits := l.credits - 1, replay := l.replay ++ [frame]
      ackTimer := if l.replay = [] then some Config.ackTime else l.ackTimer }
  (s.transmit (.event frame)).raise .framesSent

/-! ### RESYNC (R148) -/

/-- Steps 1 to 3 of R148. -/
def State.applyResync (s : State) : State :=
  let frames := s.link.replay
  let s := (s.modLink fun l => { l with replay := [] }).resyncEvents frames
  let s := s.raiseBy .mirrorDiscards s.link.mirror.length
  s.modLink fun l => { l with credits := 0, roundCount := 0, roundLeft := 0, ackTimer := none, mirror := [] }

/-- A mirror copy is offered (R33). -/
def State.offerMirror (s : State) (m : SampleFrame) : State :=
  if s.link.state = .up ∧ s.link.mirror.length < Config.mirrorCapacity then
    s.modLink fun l => { l with mirror := l.mirror ++ [m] }
  else s.raise .mirrorDiscards

end Sys2Proof.Machine
end

