-- ==== Sys2Proof/Machine/MgmtOps.lean ====
section
/-! DEFINITION. The operations of the Management Unit that several commands share (chapter 8): the arrival checks, execution
and completion. -/

namespace Sys2Proof.Machine

/-! ### The Response Queue's places (R154, R160, R161) -/

/-- A place of the Response Queue is reserved exactly while a request executes past its own event, which is while a
SWAP_ROUTES waits (R161, R164). -/
def State.reserved (s : State) : Bool := s.inlet.swap != .none

/-- The Response Queue has a free place; a reserved place does not count as free (R160). -/
def State.hasFreePlace (s : State) : Bool :=
  s.mgmt.responses.length + (if s.reserved then 1 else 0) < Config.responseCapacity

def State.pushResponse (s : State) (r : Response) : State :=
  { s with mgmt := { s.mgmt with responses := s.mgmt.responses ++ [r] } }

/-! ### Arrival (R155–R160) -/

/-- What the arrival checks find (R155). -/
inductive Arrival where
  | restart
  | tagInUse
  | replay (entry : CacheEntry)
  | busy
  | queue
  deriving DecidableEq, Repr

/-- The cache after check 3: an entry of the same tag and another command is removed (R158). -/
def cacheAfterCheck3 (cache : List CacheEntry) (q : Request) : List CacheEntry :=
  cache.filter fun e => !(e.tag == q.tag && e.command != q.command)

/-- The checks of R155, in their order; check 3 only changes the cache. -/
def Mgmt.arrival (m : Mgmt) (q : Request) : Arrival :=
  if q.command = Config.cmdRestart ∧ q.params = [] then .restart
  else if m.requests.any (·.tag == q.tag) then .tagInUse
  else match m.cache.find? (fun e => e.tag == q.tag && e.command == q.command) with
    | some e => .replay e
    | none => if Config.requestCapacity ≤ m.requests.length then .busy else .queue

/-- An answer made at arrival joins the Response Queue, with its counter, or the request is discarded unanswered (R160). -/
def State.answerAtArrival (s : State) (r : Response) (counter : Option GlobalCounter) : State :=
  if s.hasFreePlace then
    match counter with
    | some k => (s.pushResponse r).raise k
    | none => s.pushResponse r
  else s.raise .discardedUnanswered

/-! ### Execution (R161–R163) -/

/-- The request that begins execution now: the head, when no request is executing and a place is free (R161). -/
def State.executable (s : State) : Option Request :=
  if !s.reserved && s.hasFreePlace then s.mgmt.requests.head? else none

/-- A completed execution: the response joins the queue, the cache takes an entry, and the request leaves the head
(R163). -/
def State.complete (s : State) (status : Status) (data : List Byte) : State :=
  match s.mgmt.requests with
  | [] => s
  | q :: rest =>
    let cache := s.mgmt.cache ++ [{ tag := q.tag, command := q.command, status := status, data := data }]
    { s with mgmt :=
      { requests := rest
        responses := s.mgmt.responses ++
          [{ tag := q.tag, command := q.command, status := status, replayed := false, data := data }]
        cache := if Config.cacheCapacity < cache.length then cache.drop 1 else cache } }

/-- What an owner makes of a request: the effect on the part, the status and the data. -/
structure Answer where
  state : State
  status : Status
  data : List Byte

/-- A refusal leaves every block as it was (R153). -/
def State.refuse (s : State) (status : Status) : Answer := { state := s, status := status, data := [] }

/-- The request is carried out; it returns `data`. -/
def State.accept (s : State) (data : List Byte) : Answer := { state := s, status := .ok, data := data }

/-- The head request, when it may begin and its command code passes `is`, is executed by its owner and completes in the
same event (R161–R163). When there is no such request, no execution occurs (assumptions 2 and 5). -/
def State.execute (s : State) (is : Byte → Bool) (owner : State → List Byte → Answer) : State :=
  match s.executable with
  | some q =>
    if is q.command then
      let a := owner s q.params
      a.state.complete a.status a.data
    else s
  | none => s

end Sys2Proof.Machine
end

