-- ==== Sys2Proof/Machine/AlertAndCounters.lean ====
section
/-! DEFINITION. The Alert Unit's and the Counter Bank's commands (chapter 9). -/

namespace Sys2Proof.Machine

/-- HOLD_TIMER_EXPIRY (R179): the line is deasserted, the cause set kept. -/
def execHoldTimerExpiry (s : State) : Host.Outcome State Fault Refusal :=
  .next (s.whileOn fun s =>
    if timerExpired s.alert.holdTimer then { s with alert := { s.alert with line := false, holdTimer := none } } else s)

/-- The line and the hold timer after a SET_ALERT (the table of R180). -/
def Alert.setMode (a : Alert) (mode : AlertMode) (hold : Nat) : Alert :=
  let b := { a with mode := mode, hold := hold }
  match a.mode, mode with
  | _, .off => { b with line := false, holdTimer := none }
  | .pulse, .pulse => b
  | .pulse, .latch => { b with holdTimer := none }
  | .latch, .pulse => if a.line then { b with holdTimer := some hold } else b
  | .latch, .latch | .off, .pulse | .off, .latch => b

/-- SET_ALERT at its owner (R180). -/
def ownSetAlert (s : State) (params : List Byte) : Answer :=
  match params with
  | [mode, hold] =>
    match parseAlert mode hold with
    | some (m, h) => State.accept { s with alert := s.alert.setMode m h } []
    | none => s.refuse .badValue
  | _ => s.refuse .badLength

/-- QUIET_ALERT at its owner (R181). -/
def ownQuietAlert (s : State) (params : List Byte) : Answer :=
  if params = [] then
    State.accept { s with alert := { s.alert with line := false, holdTimer := none, causes := .empty } }
      [s.alert.causes.byte]
  else s.refuse .badLength

/-- READ_COUNTERS at its owner (R184). -/
def ownReadCounters (s : State) (params : List Byte) : Answer :=
  match params with
  | [kind, channel] =>
    match counterSetOf kind channel with
    | some set => s.accept (s.countersData set)
    | none => s.refuse .badValue
  | _ => s.refuse .badLength

/-- Every counter of a set is set to 0 (R185). -/
def CounterBank.clear (b : CounterBank) : CounterSet → CounterBank
  | .global => { b with global := CounterBank.initial.global }
  | .channel c => b.modWindows c fun _ => { accepted := 0, rejected := 0, abandoned := 0 }

/-- CLEAR_COUNTERS at its owner (R185). -/
def ownClearCounters (s : State) (params : List Byte) : Answer :=
  match params with
  | [kind, channel] =>
    match counterSetOf kind channel with
    | some set => State.accept { s with counters := s.counters.clear set } []
    | none => s.refuse .badValue
  | _ => s.refuse .badLength

/-- SET_ALERT (R180). -/
def execSetAlert (s : State) : Host.Outcome State Fault Refusal :=
  .next (s.whileOn (·.execute (· == Config.cmdSetAlert) ownSetAlert))

/-- QUIET_ALERT (R181). -/
def execQuietAlert (s : State) : Host.Outcome State Fault Refusal :=
  .next (s.whileOn (·.execute (· == Config.cmdQuietAlert) ownQuietAlert))

/-- READ_COUNTERS (R184). -/
def execReadCounters (s : State) : Host.Outcome State Fault Refusal :=
  .next (s.whileOn (·.execute (· == Config.cmdReadCounters) ownReadCounters))

/-- CLEAR_COUNTERS (R185). -/
def execClearCounters (s : State) : Host.Outcome State Fault Refusal :=
  .next (s.whileOn (·.execute (· == Config.cmdClearCounters) ownClearCounters))

end Sys2Proof.Machine
end

