-- ==== Sys2Proof/Machine/ChannelCommands.lean ====
section
/-! DEFINITION. The commands on one channel (chapters 1, 4 and 5): its timers' expiries and SET_CHANNEL, GET_CHANNEL,
REBASE. -/

namespace Sys2Proof.Machine

/-- QUIET_TIMER_EXPIRY (R97). -/
def execQuietTimerExpiry (c : ChanNo) (s : State) : Host.Outcome State Fault Refusal :=
  .next (s.whileOn fun s => if timerExpired (s.chan c).run.quiet then s.driftStep c else s)

/-- MAX_ACTIVE_EXPIRY (R79). -/
def execMaxActiveExpiry (c : ChanNo) (s : State) : Host.Outcome State Fault Refusal :=
  .next (s.whileOn fun s =>
    if (s.chan c).run.engaged && timerExpired (s.chan c).run.maxActive then s.stuckExpiry c else s)

/-- SET_CHANNEL at its owner (R16). -/
def ownSetChannel (s : State) (params : List Byte) : Answer :=
  match params with
  | [ch, mode, profile, group, polarity] =>
    match parseChannelConfig ch mode profile group polarity with
    | some (c, config) => (s.setConfig c config).accept []
    | none => s.refuse .badValue
  | _ => s.refuse .badLength

/-- GET_CHANNEL at its owner (R18). -/
def ownGetChannel (s : State) (params : List Byte) : Answer :=
  match params with
  | [ch] =>
    match channelOf ch with
    | some c => s.accept (s.snapshot c)
    | none => s.refuse .badValue
  | _ => s.refuse .badLength

/-- REBASE at its owner (R84). -/
def ownRebase (s : State) (params : List Byte) : Answer :=
  match params with
  | [ch] =>
    match channelOf ch with
    | some c => if (s.chan c).running then (s.forceSettling c).accept [] else s.refuse .badState
    | none => s.refuse .badValue
  | _ => s.refuse .badLength

/-- SET_CHANNEL (R16). -/
def execSetChannel (s : State) : Host.Outcome State Fault Refusal :=
  .next (s.whileOn (·.execute (· == Config.cmdSetChannel) ownSetChannel))

/-- GET_CHANNEL (R18). -/
def execGetChannel (s : State) : Host.Outcome State Fault Refusal :=
  .next (s.whileOn (·.execute (· == Config.cmdGetChannel) ownGetChannel))

/-- REBASE (R84). -/
def execRebase (s : State) : Host.Outcome State Fault Refusal :=
  .next (s.whileOn (·.execute (· == Config.cmdRebase) ownRebase))

end Sys2Proof.Machine
end

