-- ==== Sys2Proof/Machine/Inlet.lean ====
section
/-! DEFINITION. The Inlet Receiver (chapter 2): inlet frames, silence, and the route requests. -/

namespace Sys2Proof.Machine

def State.modInlet (s : State) (f : Inlet → Inlet) : State := { s with inlet := f s.inlet }

/-! ### The Route Table (R21, R22) -/

/-- Channel `c` lies in the entry's channel range. -/
def Route.covers (r : Route) (c : ChanNo) : Bool := r.base.val ≤ c.val && c.val < r.base.val + r.lanes

/-- The entry's channel range, ascending. -/
def Route.range (r : Route) : List ChanNo := allChannels.filter r.covers

/-- Two entries share a channel. -/
def Route.overlaps (a b : Route) : Bool :=
  a.base.val < b.base.val + b.lanes && b.base.val < a.base.val + a.lanes

/-- The active entry for a source (R23). -/
def Inlet.lookup (i : Inlet) (source : Byte) : Option ActiveRoute := i.active.find? (·.route.source == source)

/-- The tracking fields of the active entry for a source are changed. -/
def State.modTrack (s : State) (source : Byte) (f : Tracking → Tracking) : State :=
  s.modInlet fun i =>
    { i with active := i.active.map fun a => if a.route.source == source then { a with track := f a.track } else a }

/-! ### Taking a frame (R24–R28) -/

/-- The class of a frame on a routed source (R24). -/
inductive FrameClass where
  | first
  | inOrder
  | gap (missing : Nat)
  | stale
  deriving DecidableEq, Repr

/-- The distance decides the class once the entry is synchronised (R24). -/
def classify (t : Tracking) (sequence : Byte) : FrameClass :=
  let m := (sequence - t.expected).toNat
  if !t.synced then .first
  else if m = 0 then .inOrder
  else if m ≤ 127 then .gap m
  else .stale

/-- Steps 1 and 2 of R28: the sequence is tracked, the frame counted, and the silence timer of a watched route restarted
(R24, R29). -/
def State.trackFrame (s : State) (r : Route) (sequence : Byte) : State :=
  (s.modTrack r.source fun t =>
    { t with synced := true, expected := sequence + 1,
             timer := if r.silence = 0 then t.timer else some r.silence }).raise .inletTaken

/-- Step 3 of R28: a silent route resumes (R31). -/
def State.resumeRoute (s : State) (a : ActiveRoute) : State :=
  if a.track.silent then
    a.route.range.foldl State.resumeEvent (s.modTrack a.route.source fun t => { t with silent := false })
  else s

/-- The window of a running channel is abandoned at a gap (R25). -/
def State.abandonRunning (s : State) (c : ChanNo) : State := if (s.chan c).running then s.abandon c else s

/-- Step 4 of R28: a gap (R25). -/
def State.takeGap (s : State) (r : Route) (cls : FrameClass) : State :=
  match cls with
  | .gap m => r.range.foldl State.abandonRunning ((s.hand r.base (.gap m)).raise .gaps)
  | .first | .inOrder | .stale => s

/-- Step 5 of R28: the lanes that frame and entry share are delivered in ascending order, and a mismatch of the lane
counts is counted (R27). -/
def State.deliverLanes (s : State) (r : Route) (samples : List Sample) : State :=
  let s := (r.range.zip samples).foldl (fun s lane => s.deliverSample lane.1 lane.2) s
  if samples.length = r.lanes then s else s.raise .laneMismatches

/-- A taken frame is handled as one event (R28). -/
def State.takeFrame (s : State) (a : ActiveRoute) (cls : FrameClass) (m : SampleFrame) : State :=
  let s := s.trackFrame a.route m.sequence
  let s := s.resumeRoute a
  let s := s.takeGap a.route cls
  let s := s.deliverLanes a.route m.samples
  if a.route.mirror then s.offerMirror m else s

/-- A well-formed frame is looked up and tracked (R23, R24, R26). -/
def State.routeFrame (s : State) (m : SampleFrame) : State :=
  match s.inlet.lookup m.source with
  | none => s.raise .unrouted
  | some a =>
    match classify a.track m.sequence with
    | .stale => s.raise .stale
    | cls => s.takeFrame a cls m

/-- A complete inlet frame is checked and handled (R20). -/
def State.handleInlet (s : State) (f : RawFrame) : State :=
  match checkSample f with
  | .error _ => s.raise .inletDiscards
  | .ok m => s.routeFrame m

/-- A frame is no longer in reception, and a swap that waited for it is due (R19, R37). -/
def Inlet.endReception (i : Inlet) : Inlet :=
  { i with reception := .hunting, swap := if i.swap = .waiting then .due else i.swap }

/-! ### The bank swap (R37–R39) -/

/-- Tracking fields as they begin (R22, R41). -/
def Tracking.begin : Tracking := { synced := false, expected := 0, timer := none, silent := false }

/-- The tracking fields of an entry of the new active bank (R38). -/
def inheritTracking (old : Option ActiveRoute) (r : Route) : Tracking :=
  match old with
  | none => .begin
  | some a =>
    { a.track with timer := if r.silence = 0 then none else a.track.timer.map (min · r.silence) }

/-- The (source, lane) pair that a bank maps onto a channel (R39). -/
def mappingOf (bank : List Route) (c : ChanNo) : Option (Byte × Nat) :=
  (bank.find? (·.covers c)).map fun r => (r.source, c.val - r.base.val)

/-- The swap unroutes the channel: it was mapped, and it is not mapped to the same lane of the same source (R39). -/
def unroutedBy (old new : List Route) (c : ChanNo) : Bool :=
  (mappingOf old c).isSome && mappingOf new c != mappingOf old c

/-- The banks change places (R38). -/
def Inlet.exchange (i : Inlet) : Inlet :=
  { i with
    swap := .none
    active := i.shadow.map fun r => { route := r, track := inheritTracking (i.lookup r.source) r }
    shadow := i.active.map (·.route) }

/-- A swap is taken: the banks change places, and the unrouted channels get their events in ascending order (R38, R39). -/
def State.takeSwap (s : State) : State :=
  let old := s.inlet.active.map (·.route)
  let new := s.inlet.shadow
  (allChannels.filter (unroutedBy old new)).foldl State.unrouteEvent (s.modInlet Inlet.exchange)

/-- A due swap is taken, and the SWAP_ROUTES that ordered it completes (R37, R163). -/
def State.takeDueSwap (s : State) : State :=
  if s.inlet.swap = .due then s.takeSwap.complete .ok [] else s

/-! ### Inlet commands -/

/-- SAMPLE_FRAME (R20, R28). A swap left due by an earlier frame is taken first (R37; assumption 6). -/
def execSampleFrame (f : RawFrame) (s : State) : Host.Outcome State Fault Refusal :=
  .next (s.whileOn fun s => (s.takeDueSwap.handleInlet f).modInlet Inlet.endReception)

/-- INLET_SYNC_PAIR (R19). -/
def execInletSyncPair (s : State) : Host.Outcome State Fault Refusal :=
  .next (s.whileOn fun s => s.modInlet fun i => { i with reception := i.reception.sync })

/-- INLET_TRUNCATION (R19): the frame is dropped and counted, and a waiting swap is released. -/
def execInletTruncation (s : State) : Host.Outcome State Fault Refusal :=
  .next (s.whileOn fun s =>
    if s.inlet.reception.truncates then (s.modInlet Inlet.endReception).raise .inletDiscards else s)

/-- A route is declared silent (R30). -/
def State.declareSilent (s : State) (a : ActiveRoute) : State :=
  a.route.range.foldl State.silenceEvent
    (s.modTrack a.route.source fun t => { t with silent := true, timer := none })

/-- SILENCE_TIMER_EXPIRY of the active route of a source (R30). -/
def execSilenceTimerExpiry (source : Byte) (s : State) : Host.Outcome State Fault Refusal :=
  .next (s.whileOn fun s =>
    match s.inlet.lookup source with
    | some a => if timerExpired a.track.timer then s.declareSilent a else s
    | none => s)

/-! ### Route requests (R34–R37, R40) -/

/-- An entry is placed in the shadow bank, replacing one of the same source; the bank stays in ascending order. -/
def insertRoute (r : Route) : List Route → List Route
  | [] => [r]
  | x :: rest =>
    if r.source.toNat < x.source.toNat then r :: x :: rest
    else if r.source = x.source then r :: rest
    else x :: insertRoute r rest

/-- SET_ROUTE at its owner (R34). -/
def ownSetRoute (s : State) (params : List Byte) : Answer :=
  match params with
  | [source, base, lanes, mirror, hi, lo] =>
    match parseRoute source base lanes mirror hi lo with
    | none => s.refuse .badValue
    | some r =>
      if s.inlet.shadow.any (fun x => x.source != r.source && x.overlaps r) then s.refuse .badValue
      else if Config.routeCapacity ≤ s.inlet.shadow.length && !s.inlet.shadow.any (·.source == r.source) then
        s.refuse .full
      else (s.modInlet fun i => { i with shadow := insertRoute r i.shadow }).accept []
  | _ => s.refuse .badLength

/-- DROP_ROUTE at its owner (R35). -/
def ownDropRoute (s : State) (params : List Byte) : Answer :=
  match params with
  | [source] =>
    if s.inlet.shadow.any (·.source == source) then
      (s.modInlet fun i => { i with shadow := i.shadow.filter (·.source != source) }).accept []
    else s.refuse .notFound
  | _ => s.refuse .badLength

/-- COPY_ROUTES at its owner (R36). -/
def ownCopyRoutes (s : State) (params : List Byte) : Answer :=
  if params = [] then (s.modInlet fun i => { i with shadow := i.active.map (·.route) }).accept []
  else s.refuse .badLength

/-- GET_ROUTES at its owner (R40). -/
def ownGetRoutes (s : State) (params : List Byte) : Answer :=
  match params with
  | [selector] =>
    match bankOf selector with
    | some bank => s.accept (s.routesData bank)
    | none => s.refuse .badValue
  | _ => s.refuse .badLength

/-- SET_ROUTE (R34). -/
def execSetRoute (s : State) : Host.Outcome State Fault Refusal :=
  .next (s.whileOn (·.execute (· == Config.cmdSetRoute) ownSetRoute))

/-- DROP_ROUTE (R35). -/
def execDropRoute (s : State) : Host.Outcome State Fault Refusal :=
  .next (s.whileOn (·.execute (· == Config.cmdDropRoute) ownDropRoute))

/-- COPY_ROUTES (R36). -/
def execCopyRoutes (s : State) : Host.Outcome State Fault Refusal :=
  .next (s.whileOn (·.execute (· == Config.cmdCopyRoutes) ownCopyRoutes))

/-- GET_ROUTES (R40). -/
def execGetRoutes (s : State) : Host.Outcome State Fault Refusal :=
  .next (s.whileOn (·.execute (· == Config.cmdGetRoutes) ownGetRoutes))

/-- A SWAP_ROUTES begins execution (R37): refused for its length, taken at once, or left to wait for the frame in
reception, its response place reserved. -/
def State.beginSwap (s : State) (params : List Byte) : State :=
  if params ≠ [] then s.complete .badLength []
  else if s.inlet.reception = .hunting then s.takeSwap.complete .ok []
  else s.modInlet fun i => { i with swap := .waiting }

/-- SWAP_ROUTES (R37). -/
def execSwapRoutes (s : State) : Host.Outcome State Fault Refusal :=
  .next (s.whileOn fun s =>
    match s.executable with
    | some q => if q.command = Config.cmdSwapRoutes then s.beginSwap q.params else s
    | none => s)

/-- SWAP_TAKEN (R37–R39): the swap whose frame has ended is taken, and its response is produced. -/
def execSwapTaken (s : State) : Host.Outcome State Fault Refusal := .next (s.whileOn State.takeDueSwap)

end Sys2Proof.Machine
end

