-- ==== Sys2Proof/Machine/Arrival.lean ====
section
/-! DEFINITION. What an arriving request does (chapter 8): the restart of the whole part, the answers made at arrival, and
the Request Queue. -/

namespace Sys2Proof.Machine

/-! ### Restart (R172–R174) -/

/-- A channel at a restart: configuration kept, the rest begun anew (R62, R89). -/
def Channel.restart (ch : Channel) : Channel :=
  { Channel.initial with
    config := ch.config
    run := { Channel.initial.run with state := if ch.config.mode = .off then .off else .settling } }

/-- The Outlet Link Controller at a restart: its buffers emptied uncounted, DOWN entered, the frame in transmission left to
complete (R150); a DOWN entry that an earlier RESYNC's response would still have brought does not follow
(assumption 9). -/
def Link.restart (l : Link) (tag : Byte) : Link :=
  { (l.enterDown (.restart tag)) with replay := [], reception := .hunting, laneResync := none }

/-- The restart of the whole part (R174). -/
def State.restart (s : State) (tag : Byte) : State where
  power := s.power
  time := 0
  inlet :=
    { reception := .hunting, swap := .none, shadow := s.inlet.shadow
      active := s.inlet.active.map fun a => { a with track := .begin } }
  channels := vmap Channel.restart s.channels
  groups := vmap (fun g => { g with tier := 0 }) s.groups
  profiles := s.profiles
  events := .initial
  link := s.link.restart tag
  mgmt := { requests := [], responses := [], cache := [] }
  alert := { mode := s.alert.mode, hold := s.alert.hold, line := false, holdTimer := none, causes := .empty }
  counters := .initial
  pending := s.pending

/-- A request is taken by the arrival checks (R155). A restart that finds a due swap, the frame's handling being complete,
finds the banks exchanged (R175; assumption 6); one that finds a swap waiting discards it (R37). -/
def State.takeRequest (s : State) (q : Request) : State :=
  let answer (status : Status) : Response :=
    { tag := q.tag, command := q.command, status := status, replayed := false, data := [] }
  match s.mgmt.arrival q with
  | .restart => s.takeDueSwap.restart q.tag
  | .tagInUse => s.answerAtArrival (answer .tagInUse) none
  | .replay e =>
    s.answerAtArrival { tag := e.tag, command := e.command, status := e.status, replayed := true, data := e.data }
      (some .cacheReplays)
  | .busy =>
    State.answerAtArrival { s with mgmt := { s.mgmt with cache := cacheAfterCheck3 s.mgmt.cache q } } (answer .busy)
      (some .refusedBusy)
  | .queue =>
    { s with mgmt := { s.mgmt with cache := cacheAfterCheck3 s.mgmt.cache q, requests := s.mgmt.requests ++ [q] } }

end Sys2Proof.Machine
end

