-- ==== Sys2Proof/Machine/LinkCommands.lean ====
section
/-! DEFINITION. The commands on the outlet link (chapter 7): inbound frames, its timers' expiries, and the frames of the
outbound lane. -/

namespace Sys2Proof.Machine

/-! ### The inbound lane (R146) -/

/-- An inbound frame is no longer in reception. -/
def State.endInbound (s : State) : State := s.modLink fun l => { l with reception := .hunting }

/-- ACK_FRAME (R129, R136, R144): a frame that passes the checks of R146 as an Ack Frame is applied whole. A frame that
does not is no Ack Frame, and this command does not occur with it (assumption 2). -/
def execAckFrame (f : RawFrame) (s : State) : Host.Outcome State Fault Refusal :=
  .next (s.whileOn fun s =>
    match checkInbound f with
    | .ack a => s.endInbound.takeAck a.ack a.grant a.resend
    | .request _ _ _ | .discard _ => s)

/-- REQUEST_FRAME (R147, R155): a frame that passes the checks of R146 as a Request Frame reaches the arrival checks. -/
def execRequestFrame (f : RawFrame) (s : State) : Host.Outcome State Fault Refusal :=
  .next (s.whileOn fun s =>
    match checkInbound f with
    | .request tag command params => s.endInbound.takeRequest { tag := tag, command := command, params := params }
    | .ack _ | .discard _ => s)

/-- INBOUND_DISCARD (R146): a frame that fails a check of R146 is discarded and counted. -/
def execInboundDiscard (f : RawFrame) (s : State) : Host.Outcome State Fault Refusal :=
  .next (s.whileOn fun s =>
    match checkInbound f with
    | .discard _ => s.endInbound.raise .inboundDiscards
    | .ack _ | .request _ _ _ => s)

/-- INBOUND_SYNC_PAIR (R146). -/
def execInboundSyncPair (s : State) : Host.Outcome State Fault Refusal :=
  .next (s.whileOn fun s => s.modLink fun l => { l with reception := l.reception.sync })

/-- INBOUND_TRUNCATION (R146): the frame is dropped and counted. -/
def execInboundTruncation (s : State) : Host.Outcome State Fault Refusal :=
  .next (s.whileOn fun s => if s.link.reception.truncates then s.endInbound.raise .inboundDiscards else s)

/-! ### Timer expiries -/

/-- The ack timer expires in UP: a timed round, or the stall (R141). -/
def State.ackExpiry (s : State) : State :=
  if s.link.roundCount < Config.roundLimit then
    s.modLink fun l => ({ l with roundCount := l.roundCount + 1 }).beginRound
  else s.stall

/-- ACK_TIMER_EXPIRY (R141). -/
def execAckTimerExpiry (s : State) : Host.Outcome State Fault Refusal :=
  .next (s.whileOn fun s => if s.link.state = .up ∧ timerExpired s.link.ackTimer then s.ackExpiry else s)

/-- ANNOUNCE_TIMER_EXPIRY (R128). -/
def execAnnounceTimerExpiry (s : State) : Host.Outcome State Fault Refusal :=
  .next (s.whileOn fun s =>
    if s.link.state = .down ∧ timerExpired s.link.announceTimer then
      s.modLink fun l => { l with announceDue := true, announceTimer := some Config.announceTime }
    else s)

/-! ### The outbound lane (R130, R131) -/

/-- The frame in transmission has left the part: the lane is free, and a RESYNC response brings the link DOWN before
anything else is granted the lane (R130, R148). -/
def State.completeTransmission (s : State) : State :=
  let s' := s.modLink fun l => { l with lane := none, laneResync := none }
  match s.link.laneResync with
  | some tag => s'.enterDownResync tag
  | none => s'

/-- TRANSMISSION_COMPLETE (R130). -/
def execTransmissionComplete (s : State) : Host.Outcome State Fault Refusal :=
  .next (s.whileOn fun s => if s.link.lane.isSome then s.completeTransmission else s)

/-- The response is that of a RESYNC carried out, not a replay of one (R148, R170). -/
def Response.ordersDown (r : Response) : Bool :=
  r.command == Config.cmdResync && r.status == .ok && !r.replayed

/-- RESPONSE_FRAME_SEND (R167): the head response leaves the queue as its transmission begins. -/
def execResponseFrameSend (s : State) : Host.Outcome State Fault Refusal :=
  .next (s.whileOn fun s =>
    match s.laneGrant, s.mgmt.responses with
    | some .response, r :: rest =>
      ({ s with mgmt := { s.mgmt with responses := rest } }.transmit (.response r)).modLink fun l =>
        { l with laneResync := if r.ordersDown then some r.tag else none }
    | _, _ => s)

/-- ANNOUNCE_FRAME_SEND (R128): the due Announce Frame is built and ceases to be due. -/
def execAnnounceFrameSend (s : State) : Host.Outcome State Fault Refusal :=
  .next (s.whileOn fun s =>
    if s.laneGrant = some .announce then
      (s.modLink fun l => { l with announceDue := false }).transmit (.announce s.link.resetCause s.time)
    else s)

/-- RETRANSMITTED_FRAME (R140): the round's next frame is sent again, unchanged, and counted. -/
def execRetransmittedFrame (s : State) : Host.Outcome State Fault Refusal :=
  .next (s.whileOn fun s =>
    match s.laneGrant, s.link.roundFrame with
    | some .retransmission, some frame =>
      ((s.modLink fun l => { l with roundLeft := l.roundLeft - 1 }).transmit (.event frame)).raise .retransmitted
    | _, _ => s)

/-- NEW_EVENT_FRAME (R134). -/
def execNewEventFrame (s : State) : Host.Outcome State Fault Refusal :=
  .next (s.whileOn fun s => if s.laneGrant = some .event then s.buildEvent else s)

/-- MIRROR_FRAME_SEND (R145): the head copy leaves the buffer as its transmission begins, and is counted. -/
def execMirrorFrameSend (s : State) : Host.Outcome State Fault Refusal :=
  .next (s.whileOn fun s =>
    match s.laneGrant, s.link.mirror with
    | some .mirror, m :: rest =>
      ((s.modLink fun l => { l with mirror := rest }).transmit (.mirror m)).raise .mirrorSent
    | _, _ => s)

/-! ### RESYNC (R148) -/

/-- RESYNC at its owner (R148). -/
def ownResync (s : State) (params : List Byte) : Answer :=
  if params = [] then s.applyResync.accept [] else s.refuse .badLength

/-- RESYNC (R148). -/
def execResync (s : State) : Host.Outcome State Fault Refusal :=
  .next (s.whileOn (·.execute (· == Config.cmdResync) ownResync))

end Sys2Proof.Machine
end

