-- ==== Sys2Proof/Machine/Management.lean ====
section
/-! DEFINITION. The requests that the Management Unit executes itself: DESCRIBE, SET_PROFILE, GET_PROFILE, an unknown
command, and a RESTART with parameters (R162). -/

namespace Sys2Proof.Machine

/-- DESCRIBE at its owner (R168). -/
def ownDescribe (s : State) (params : List Byte) : Answer :=
  if params = [] then s.accept (describeData s.link.resetCause s.time) else s.refuse .badLength

/-- SET_PROFILE at its owner (R13). -/
def ownSetProfile (s : State) (params : List Byte) : Answer :=
  if params.length = profileBlockLength then
    match parseProfile params with
    | some (n, p) => State.accept { s with profiles := s.profiles.set n p } []
    | none => s.refuse .badValue
  else s.refuse .badLength

/-- GET_PROFILE at its owner (R15). -/
def ownGetProfile (s : State) (params : List Byte) : Answer :=
  match params with
  | [b] =>
    match toFin 16 b.toNat with
    | some n => s.accept (profileData n s.profiles[n])
    | none => s.refuse .badValue
  | _ => s.refuse .badLength

/-- An unknown command is answered without its parameter block being read (R162). -/
def ownUnknown (s : State) (_params : List Byte) : Answer := s.refuse .badCommand

/-- A RESTART that reached execution has parameters, since one without is taken at its arrival (R155). -/
def ownRestart (s : State) (_params : List Byte) : Answer := s.refuse .badLength

/-- DESCRIBE (R168). -/
def execDescribe (s : State) : Host.Outcome State Fault Refusal :=
  .next (s.whileOn (·.execute (· == Config.cmdDescribe) ownDescribe))

/-- SET_PROFILE (R13). -/
def execSetProfile (s : State) : Host.Outcome State Fault Refusal :=
  .next (s.whileOn (·.execute (· == Config.cmdSetProfile) ownSetProfile))

/-- GET_PROFILE (R15). -/
def execGetProfile (s : State) : Host.Outcome State Fault Refusal :=
  .next (s.whileOn (·.execute (· == Config.cmdGetProfile) ownGetProfile))

/-- UNKNOWN_COMMAND (R162). -/
def execUnknownCommand (s : State) : Host.Outcome State Fault Refusal :=
  .next (s.whileOn (·.execute (fun k => !Config.knownCommands.contains k) ownUnknown))

/-- RESTART_WITH_PARAMETERS (R155). -/
def execRestartWithParameters (s : State) : Host.Outcome State Fault Refusal :=
  .next (s.whileOn (·.execute (· == Config.cmdRestart) ownRestart))

end Sys2Proof.Machine
end

