-- ==== Sys2Proof/Machine/TimeAndPower.lean ====
section
/-! DEFINITION. POWER_RESET, RESET_N_RELEASE and TIME_BASE_TICK (R41, R150, R169). -/

namespace Sys2Proof.Machine

/-- The reset cause that a power reset reports (R127). -/
def powerResetCause : PowerCause → ResetCause
  | .power => .power
  | .pin => .pin

/-- POWER_RESET: every block is held at its power-reset values, whatever it held before (R150). -/
def execPowerReset (cause : PowerCause) (s : State) : Host.Outcome State Fault Refusal :=
  .next { State.heldIn cause with pending := s.pending }

/-- The part as a released power reset leaves it: the power-reset values, running, with the entry into DOWN (R127,
R150). -/
def State.released (cause : PowerCause) : State :=
  { State.heldIn cause with
    power := .running
    link := (State.heldIn cause).link.enterDown (powerResetCause cause) }

/-- RESET_N_RELEASE: a held part begins to run (R150). On a running part there is no release. -/
def execResetNRelease (s : State) : Host.Outcome State Fault Refusal :=
  match s.power with
  | .held cause => .next { State.released cause with pending := s.pending }
  | .running => .next s

/-- The timers of a channel count a tick (R77, R78). -/
def Channel.tick (ch : Channel) : Channel :=
  { ch with run := { ch.run with maxActive := tickTimer ch.run.maxActive, quiet := tickTimer ch.run.quiet } }

/-- The silence timer of an active route counts a tick (R29). -/
def ActiveRoute.tick (a : ActiveRoute) : ActiveRoute :=
  { a with track := { a.track with timer := tickTimer a.track.timer } }

/-- One tick of the Time Base: the timestamp counter wraps at 2^24, and every running timer of the part counts down
(R169). -/
def State.tick (s : State) : State :=
  { s with
    time := s.time + 1
    channels := vmap Channel.tick s.channels
    inlet := { s.inlet with
      reception := s.inlet.reception.tick
      active := s.inlet.active.map ActiveRoute.tick }
    link := { s.link with
      reception := s.link.reception.tick
      ackTimer := tickTimer s.link.ackTimer
      announceTimer := tickTimer s.link.announceTimer }
    alert := { s.alert with holdTimer := tickTimer s.alert.holdTimer } }

/-- TIME_BASE_TICK (R169). No tick is counted while a power reset holds the part. -/
def execTimeBaseTick (s : State) : Host.Outcome State Fault Refusal := .next (s.whileOn State.tick)

end Sys2Proof.Machine
end

