-- ==== Sys2Proof/Machine/Dispatch.lean ====
section
/-! DEFINITION. One arm per command: which meaning it has. -/

namespace Sys2Proof.Machine

def exec (i : Instr) (s : State) : Host.Outcome State Fault Refusal :=
  match i with
  | .powerReset cause => Sys2Proof.Machine.execPowerReset cause s
  | .resetNRelease => Sys2Proof.Machine.execResetNRelease s
  | .sampleFrame f => Sys2Proof.Machine.execSampleFrame f s
  | .inletTruncation => Sys2Proof.Machine.execInletTruncation s
  | .silenceTimerExpiry source => Sys2Proof.Machine.execSilenceTimerExpiry source s
  | .quietTimerExpiry c => Sys2Proof.Machine.execQuietTimerExpiry c s
  | .maxActiveExpiry c => Sys2Proof.Machine.execMaxActiveExpiry c s
  | .ackFrame f => Sys2Proof.Machine.execAckFrame f s
  | .inboundDiscard f => Sys2Proof.Machine.execInboundDiscard f s
  | .inboundTruncation => Sys2Proof.Machine.execInboundTruncation s
  | .ackTimerExpiry => Sys2Proof.Machine.execAckTimerExpiry s
  | .announceTimerExpiry => Sys2Proof.Machine.execAnnounceTimerExpiry s
  | .holdTimerExpiry => Sys2Proof.Machine.execHoldTimerExpiry s
  | .transmissionComplete => Sys2Proof.Machine.execTransmissionComplete s
  | .responseFrameSend => Sys2Proof.Machine.execResponseFrameSend s
  | .announceFrameSend => Sys2Proof.Machine.execAnnounceFrameSend s
  | .retransmittedFrame => Sys2Proof.Machine.execRetransmittedFrame s
  | .newEventFrame => Sys2Proof.Machine.execNewEventFrame s
  | .mirrorFrameSend => Sys2Proof.Machine.execMirrorFrameSend s
  | .requestFrame f => Sys2Proof.Machine.execRequestFrame f s
  | .describe => Sys2Proof.Machine.execDescribe s
  | .setProfile => Sys2Proof.Machine.execSetProfile s
  | .getProfile => Sys2Proof.Machine.execGetProfile s
  | .setChannel => Sys2Proof.Machine.execSetChannel s
  | .getChannel => Sys2Proof.Machine.execGetChannel s
  | .rebase => Sys2Proof.Machine.execRebase s
  | .setRoute => Sys2Proof.Machine.execSetRoute s
  | .dropRoute => Sys2Proof.Machine.execDropRoute s
  | .copyRoutes => Sys2Proof.Machine.execCopyRoutes s
  | .swapRoutes => Sys2Proof.Machine.execSwapRoutes s
  | .swapTaken => Sys2Proof.Machine.execSwapTaken s
  | .getRoutes => Sys2Proof.Machine.execGetRoutes s
  | .setAlert => Sys2Proof.Machine.execSetAlert s
  | .quietAlert => Sys2Proof.Machine.execQuietAlert s
  | .readCounters => Sys2Proof.Machine.execReadCounters s
  | .clearCounters => Sys2Proof.Machine.execClearCounters s
  | .resync => Sys2Proof.Machine.execResync s
  | .unknownCommand => Sys2Proof.Machine.execUnknownCommand s
  | .timeBaseTick => Sys2Proof.Machine.execTimeBaseTick s
  | .inletSyncPair => Sys2Proof.Machine.execInletSyncPair s
  | .inboundSyncPair => Sys2Proof.Machine.execInboundSyncPair s
  | .restartWithParameters => Sys2Proof.Machine.execRestartWithParameters s

end Sys2Proof.Machine
end

