-- ==== Sys2Proof/Machine/Line.lean ====
section
/-! DEFINITION. From a serial input to the frame commands: bits into bytes (R186), bytes into frames by the reception states
of R19 and R146 and the form of R187, and the command that each sync pair and each complete frame is. No command of the
table brings a single byte, so these functions say which commands a run of bytes on a link stands for (assumption 8). -/

namespace Sys2Proof.Machine

/-! ### Bits and bytes on a serial input (R186) -/

/-- The bytes that a receiver reads from the bits of INLET_RX or OUTLET_RX, once it has found where a byte begins: eight bits
make a byte, the first of them its bit 7 (R186). The bytes of a command's `RawFrame` are bytes so read. -/
def bytesOfLine : List Bool → List Byte
  | b7 :: b6 :: b5 :: b4 :: b3 :: b2 :: b1 :: b0 :: rest =>
    (BitVec.ofBool b7 ++ BitVec.ofBool b6 ++ BitVec.ofBool b5 ++ BitVec.ofBool b4 ++ BitVec.ofBool b3 ++
      BitVec.ofBool b2 ++ BitVec.ofBool b1 ++ BitVec.ofBool b0) :: bytesOfLine rest
  | _ => []

/-! ### Bytes into frames (R19, R187) -/

/-- How far a receiver has read (R19): it hunts for the sync pair, or it reads a frame field by field. -/
inductive Receiver where
  /-- HUNTING; whether the byte just read was 0xC3. -/
  | hunting (afterFirst : Bool)
  /-- RECEIVING, the kind byte to come. -/
  | atKind
  /-- RECEIVING, the length byte to come. -/
  | atLength (kind : Byte)
  /-- RECEIVING, `left` payload bytes to come after those read. -/
  | atPayload (kind : Byte) (left : Nat) (read : List Byte)
  /-- RECEIVING, both CRC bytes to come. -/
  | atCrcHigh (kind : Byte) (payload : List Byte)
  /-- RECEIVING, the last CRC byte to come. -/
  | atCrcLow (kind : Byte) (payload : List Byte) (high : Byte)
  deriving DecidableEq, Repr

/-- What a byte can complete. -/
inductive LineEvent where
  | syncPair
  | frame (f : RawFrame)
  deriving DecidableEq, Repr

/-- The payload field begins, or the CRC at once when it is empty. -/
def Receiver.awaitPayload (kind : Byte) (left : Nat) (read : List Byte) : Receiver :=
  if left = 0 then .atCrcHigh kind read else .atPayload kind left read

/-- One byte arrives (R19, R187). In HUNTING only 0xC3 followed at once by 0x3C matters; in RECEIVING every byte is a frame
byte, the CRC's high byte first. -/
def Receiver.takeByte (b : Byte) : Receiver → Receiver × Option LineEvent
  | .hunting afterFirst =>
    if afterFirst && b == 0x3C then (.atKind, some .syncPair) else (.hunting (b == 0xC3), none)
  | .atKind => (.atLength b, none)
  | .atLength kind => (.awaitPayload kind b.toNat [], none)
  | .atPayload kind left read => (.awaitPayload kind (left - 1) (read ++ [b]), none)
  | .atCrcHigh kind payload => (.atCrcLow kind payload b, none)
  | .atCrcLow kind payload high =>
    (.hunting false, some (.frame { kind := kind, payload := payload, crc := word16 high b }))

/-- What a run of bytes completes, in order. -/
def Receiver.events (r : Receiver) : List Byte → List LineEvent
  | [] => []
  | b :: rest => (r.takeByte b).2.toList ++ (r.takeByte b).1.events rest

/-! ### The commands of a link (R19, R146) -/

/-- The command of an event on the inlet link. -/
def LineEvent.inletCommand : LineEvent → Instr
  | .syncPair => .inletSyncPair
  | .frame f => .sampleFrame f

/-- The command of an event on the inbound lane: a frame's row goes by the checks of R146. -/
def LineEvent.inboundCommand : LineEvent → Instr
  | .syncPair => .inboundSyncPair
  | .frame f =>
    match checkInbound f with
    | .ack _ => .ackFrame f
    | .request _ _ _ => .requestFrame f
    | .discard _ => .inboundDiscard f

/-- The commands that bytes on INLET_RX stand for, from HUNTING on. -/
def inletCommands (bytes : List Byte) : List Instr := ((Receiver.hunting false).events bytes).map LineEvent.inletCommand

/-- The commands that bytes on OUTLET_RX stand for, from HUNTING on. -/
def inboundCommands (bytes : List Byte) : List Instr := ((Receiver.hunting false).events bytes).map LineEvent.inboundCommand

end Sys2Proof.Machine
end

