-- ==== Sys2Proof/Machine/Wire.lean ====
section
/-! DEFINITION. The bytes of the frames the part sends (R187–R190), and its output pins. -/

namespace Sys2Proof.Machine

/-- Kind code, qualifier, field A and field B of a record (R189); an absent field is sent as 0. -/
def RecordKind.fields : RecordKind → Nat × Nat × Nat × Nat
  | .onset v b => (1, 3, v, b)
  | .release reason (some v) => (2, 3, v, reason.code)
  | .release reason none => (2, 1, 0, reason.code)
  | .value v t => (3, 3, v, t.val)
  | .stuck v => (4, 2, v, 0)
  | .noisy w => (5, 2, w, 0)
  | .clear v => (6, 2, v, 0)
  | .silent => (7, 0, 0, 0)
  | .resumed => (8, 0, 0, 0)
  | .gap n => (9, 2, n, 0)
  | .rebase b cause => (10, cause.code, b, 0)

/-- The eight bytes of an Event Record (R189). -/
def Record.bytes (r : Record) : List Byte :=
  let (code, qualifier, a, b) := r.kind.fields
  [BitVec.ofNat 4 code ++ BitVec.ofNat 4 r.loss, BitVec.ofNat 6 r.channel.val ++ BitVec.ofNat 2 qualifier] ++
  be24 r.time ++ be24 (BitVec.ofNat 12 a ++ BitVec.ofNat 12 b)

/-- The payload of an Event Frame (R189). -/
def EventFrame.payload (f : EventFrame) : List Byte :=
  ((0 : BitVec 2) ++ f.seq) :: byteOf f.records.length :: f.records.flatMap Record.bytes

/-- The payload of a Response Frame (R190). -/
def Response.payload (r : Response) : List Byte :=
  r.tag :: r.command :: r.status.code :: flagByte [r.replayed] :: r.data

/-- The payload of an Announce Frame (R190). -/
def announcePayload (cause : ResetCause) (tick : Tick) : List Byte :=
  be16 Config.partCode ++ [Config.revision, cause.code, cause.tagByte] ++ be24 tick

/-- Kind and payload of an outbound frame. -/
def OutFrame.content : OutFrame → Byte × List Byte
  | .response r => (Config.kindResponse, r.payload)
  | .announce cause tick => (Config.kindAnnounce, announcePayload cause tick)
  | .event f => (Config.kindEvent, f.payload)
  | .mirror m => (Config.kindMirror, samplePayload m)

/-- A frame on the wire (R187). -/
def frameBytes (kind : Byte) (payload : List Byte) : List Byte :=
  Config.syncBytes ++ [kind, byteOf payload.length] ++ payload ++ be16 (frameCrc kind payload)

/-- The bytes of an outbound frame. -/
def OutFrame.bytes (f : OutFrame) : List Byte := frameBytes f.content.1 f.content.2

/-- What OUTLET_TX carries: the frame in transmission, or idle fill (R130, R187). -/
def State.outletTx (s : State) : List Byte :=
  match s.link.lane with
  | some f => f.bytes
  | none => [Config.idleFill]

/-- The bits of a byte in the order in which a link carries them: bit 7 first (R186). -/
def byteBits (b : Byte) : List Bool :=
  [b.getLsbD 7, b.getLsbD 6, b.getLsbD 5, b.getLsbD 4, b.getLsbD 3, b.getLsbD 2, b.getLsbD 1, b.getLsbD 0]

/-- The bits on the serial output OUTLET_TX, in the order sent: its bytes in order, each most significant bit first
(R186). -/
def State.outletBits (s : State) : List Bool := s.outletTx.flatMap byteBits

/-- The ALERT pin is driven low while the line is asserted (R177). -/
def State.alertPinLow (s : State) : Bool := s.alert.line

end Sys2Proof.Machine
end

