-- ==== Sys2Proof/Safety.lean ====
section
/-! DEFINITION. What the manual promises of every state of a running part, block by block: the invariants that the
statements use, and the words in which the statements are written. A run is safe while the invariants hold; no command
ever stops the part. -/

namespace Sys2Proof.Machine

/-! ### Channel contexts (R63, R66, R68, R90) -/

/-- The states whose baseline is valid (R63). -/
def ChanState.hasBaseline : ChanState → Bool
  | .idle | .pending | .active => true
  | .off | .settling | .noisy | .silent => false

/-- The relations of R63, R66, R68, R78 and R90 between the fields of one channel context. -/
def Channel.consistent (ch : Channel) : Prop :=
  (ch.run.state = .off ↔ ch.config.mode = .off) ∧
  (ch.run.state = .active → ch.run.engaged = true) ∧
  (ch.run.engaged = true → (ch.run.state = .active ∨ ch.run.state = .noisy) ∧ ch.run.baseline.isSome) ∧
  (ch.run.state.hasBaseline = true → ch.run.baseline.isSome) ∧
  (ch.run.state = .off ∨ ch.run.state = .settling → ch.run.baseline = none) ∧
  (ch.run.baseline.isSome → ch.window.lastMean.isSome) ∧
  (ch.run.quiet.isSome ↔ ch.run.state = .idle) ∧
  (ch.run.maxActive.isSome → ch.run.engaged = true) ∧
  (ch.run.confirm = 0 ↔ ch.run.state ≠ .pending) ∧
  ch.run.rejectRun ≤ Config.rejectRunMax ∧
  (ch.run.state.takesSamples = false → ch.window.openWin = none) ∧
  (ch.run.state = .off → ch.run.lastValue = none)

/-- Every channel context is consistent. -/
def State.channelsConsistent (s : State) : Prop := ∀ c : ChanNo, (s.chan c).consistent

/-! ### Windows and levels (R3, R4, R45) -/

/-- An open window's fields lie in the ranges of R3 and R45. -/
def Window.inRange (w : Window) : Prop :=
  1 ≤ w.fill ∧ w.fill < w.latched ∧ w.latched ≤ 64 ∧ w.minimum ≤ w.maximum ∧ w.maximum ≤ Config.maxCount ∧
  w.fill * w.minimum ≤ w.sum ∧ w.sum ≤ w.fill * w.maximum

/-- Every count a channel context holds is a count 0–4095 (R3, R4). -/
def Channel.inRange (ch : Channel) : Prop :=
  (∀ w ∈ ch.window.openWin, w.inRange) ∧ ch.window.lastRate ≤ Config.maxCount ∧
  (∀ m ∈ ch.window.lastMean, m ≤ Config.maxCount) ∧ (∀ b ∈ ch.run.baseline, b ≤ Config.maxCount) ∧
  (∀ v ∈ ch.run.lastValue, v ≤ Config.maxCount)

/-- Every profile meets the conditions of R7 and R8. -/
def State.profilesValid (s : State) : Prop := ∀ n : Fin 16, s.profiles[n].valid = true

/-- Profiles are valid, and every channel's counts lie in range. -/
def State.levelsInRange (s : State) : Prop := s.profilesValid ∧ ∀ c : ChanNo, (s.chan c).inRange

/-! ### Groups (R11) -/

/-- How many channels name group `g`. -/
def State.memberCount (s : State) (g : Fin 8) : Nat :=
  (s.channels.toList.filter fun ch => ch.config.group = some g).length

/-- Each group's member count is the number of channels that name it (R11), and a group without members holds tier 0
(R54). -/
def State.groupsConsistent (s : State) : Prop :=
  ∀ g : Fin 8, s.groups[g].members = s.memberCount g ∧ (s.groups[g].members = 0 → s.groups[g].tier = 0)

/-! ### Route Table (R21, R22) -/

/-- The conditions of R21 on the entries of one bank, and the bank's canonical order. -/
def bankOk (bank : List Route) : Prop :=
  bank.length ≤ Config.routeCapacity ∧
  (∀ r ∈ bank, 1 ≤ r.lanes ∧ r.lanes ≤ 16 ∧ r.base.val + r.lanes ≤ 64 ∧ r.silence ≤ 65535) ∧
  bank.Pairwise fun a b => a.source.toNat < b.source.toNat ∧ a.overlaps b = false

/-- The relations of R22 and R38 between an active entry's silence limit, timer and silent flag. -/
def ActiveRoute.trackingOk (a : ActiveRoute) : Prop :=
  (∀ t ∈ a.track.timer, a.route.silence ≠ 0 ∧ t ≤ a.route.silence) ∧
  (a.track.silent = true → a.track.timer = none) ∧ (a.track.timer.isSome → a.track.synced = true)

/-- Both banks meet R21, and the active bank's tracking fields meet R22. -/
def State.routesOk (s : State) : Prop :=
  bankOk (s.inlet.active.map (·.route)) ∧ bankOk s.inlet.shadow ∧ ∀ a ∈ s.inlet.active, a.trackingOk

/-! ### Event path (R105–R108, R114, R115) -/

/-- The bounds and the Deferred list's condition of R105–R107, and the pending loss of R114. -/
def Events.ordered (e : Events) : Prop :=
  e.queue.length ≤ Config.queueCapacity ∧
  (∀ c : ChanNo, (e.del c).held.length ≤ Config.heldCapacity ∧ (∀ r ∈ (e.del c).held, r.channel = c) ∧
    (e.del c).pendingLoss ≤ Config.lossMax ∧ ((e.del c).held = [] → (e.del c).pendingLoss = 0)) ∧
  e.deferred.Nodup ∧ (∀ c : ChanNo, c ∈ e.deferred ↔ (e.del c).held ≠ []) ∧
  (e.deferred ≠ [] → e.queue.length = Config.queueCapacity) ∧
  (∀ r ∈ e.queue, r.loss ≤ Config.lossMax)

/-- The records of the frames in the Replay Buffer. -/
def State.inReplay (s : State) : List Record := s.link.replay.flatMap (·.records)

/-- How many VALUE records of channel `c` lie in queue, Held list and Replay Buffer together (R115). -/
def State.valuesOf (s : State) (c : ChanNo) : Nat :=
  (s.events.queue.filter (Record.isValueOf c)).length + ((s.events.del c).held.filter (Record.isValueOf c)).length +
  (s.inReplay.filter (Record.isValueOf c)).length

/-- At most one VALUE of each channel in the event path; the flag is set exactly while it lies in the Replay Buffer; a
staged value only while the flag is set (R108, R115). -/
def State.oneValueEach (s : State) : Prop :=
  ∀ c : ChanNo, s.valuesOf c ≤ 1 ∧
    ((s.events.del c).inFlight = true ↔ s.inReplay.any (Record.isValueOf c) = true) ∧
    ((s.events.del c).staged.isSome → (s.events.del c).inFlight = true)

/-! ### Outlet link (R126, R132, R135, R139–R141, R145, R148) -/

/-- The frames' numbers are consecutive modulo 64 and end just below the next sequence number (R133, R135). -/
def numbered : BitVec 6 → List EventFrame → Prop
  | _, [] => True
  | next, f :: rest => f.seq = next - BitVec.ofNat 6 (rest.length + 1) ∧ numbered next rest

/-- A RESYNC's own response waits or is in transmission, so that the link is to enter DOWN (R148). -/
def State.resyncPending (s : State) : Prop :=
  s.link.laneResync.isSome ∨ ∃ r ∈ s.mgmt.responses,
    r.command = Config.cmdResync ∧ r.status = .ok ∧ r.replayed = false

/-- The bounds and relations of chapter 7. -/
def State.linkOk (s : State) : Prop :=
  s.link.credits ≤ Config.creditMax ∧ s.link.replay.length ≤ Config.replayCapacity ∧
  numbered s.link.nextSeq s.link.replay ∧
  (∀ f ∈ s.link.replay, 1 ≤ f.records.length ∧ f.records.length ≤ Config.recordsPerFrame) ∧
  (s.link.state = .down → s.link.replay = []) ∧
  (s.resyncPending → s.link.replay = []) ∧
  (s.link.state = .stalled → s.link.replay ≠ [] ∨ s.resyncPending) ∧
  s.link.roundCount ≤ Config.roundLimit ∧ s.link.roundLeft ≤ s.link.replay.length ∧
  (0 < s.link.roundLeft → s.link.state = .up) ∧
  (s.link.ackTimer.isSome ↔ s.link.state = .up ∧ s.link.replay ≠ []) ∧
  (∀ t ∈ s.link.ackTimer, t ≤ Config.ackTime) ∧ (∀ t ∈ s.link.announceTimer, t ≤ Config.announceTime) ∧
  (s.link.announceTimer.isSome ↔ s.link.state = .down ∧ s.power = .running) ∧
  (s.link.announceDue = true → s.link.state = .down) ∧
  s.link.mirror.length ≤ Config.mirrorCapacity ∧ (s.link.state ≠ .up → s.link.mirror = []) ∧
  (s.link.laneResync.isSome → s.link.lane.isSome)

/-! ### Management (R154, R155, R161) -/

/-- The bounds of R154; no tag twice in the Request Queue, none twice in the cache, none in both; a waiting swap's
request is at the head. -/
def State.mgmtOk (s : State) : Prop :=
  s.mgmt.requests.length ≤ Config.requestCapacity ∧ (s.mgmt.requests.map (·.tag)).Nodup ∧
  s.mgmt.responses.length + (if s.reserved then 1 else 0) ≤ Config.responseCapacity ∧
  s.mgmt.cache.length ≤ Config.cacheCapacity ∧ (s.mgmt.cache.map (·.tag)).Nodup ∧
  (∀ q ∈ s.mgmt.requests, ∀ e ∈ s.mgmt.cache, q.tag ≠ e.tag) ∧
  (∀ q ∈ s.mgmt.requests, q.command = Config.cmdRestart → q.params ≠ []) ∧
  (s.inlet.swap ≠ .none → (s.mgmt.requests.head?.map (·.command)) = some Config.cmdSwapRoutes) ∧
  (s.inlet.swap = .waiting → s.inlet.reception ≠ .hunting)

/-! ### Alert (R177, R180) -/

/-- In OFF the line is deasserted; the hold timer runs exactly while the mode is PULSE and the line is asserted. -/
def Alert.ok (a : Alert) : Prop :=
  (a.mode = .off → a.line = false) ∧ (a.holdTimer.isSome ↔ a.mode = .pulse ∧ a.line = true) ∧
  1 ≤ a.hold ∧ a.hold ≤ 255 ∧ (∀ t ∈ a.holdTimer, t ≤ 255)

/-! ### Power -/

/-- While a power reset holds the part, every block holds its power-reset values (R150). The next sequence number, to which
R150 gives none, is 0 (the model's choice, assumption 10). -/
def State.heldOk (s : State) : Prop :=
  ∀ cause, s.power = .held cause → s = { State.heldIn cause with pending := s.pending }

/-! ### Words of the statements -/

/-- The part runs, no swap waits, the Response Queue has a free place, and the Request Queue holds `q` at its head and
`rest` behind it: `q` may be executed (R161). -/
def State.ready (s : State) (q : Request) (rest : List Request) : Prop :=
  s.power = .running ∧ s.inlet.swap = .none ∧ s.mgmt.responses.length < 4 ∧ s.mgmt.requests = q :: rest

/-- The Management Unit once the head request `q` has been answered: the response is queued, the request is gone, and the
cache has taken the entry, giving up its oldest when it was full (R163). -/
def Mgmt.answered (m : Mgmt) (q : Request) (rest : List Request) (status : Status) (data : List Byte) : Mgmt :=
  let entry : CacheEntry := { tag := q.tag, command := q.command, status := status, data := data }
  { requests := rest
    responses := m.responses ++ [{ tag := q.tag, command := q.command, status := status, replayed := false, data := data }]
    cache := if m.cache.length < 8 then m.cache ++ [entry] else m.cache.drop 1 ++ [entry] }

/-- The part once the head request has been answered, nothing else changed. -/
def State.answered (s : State) (q : Request) (rest : List Request) (status : Status) (data : List Byte) : State :=
  { s with mgmt := s.mgmt.answered q rest status data }

/-- An execution row's command code and the parameter length the command requires (R190, R191). -/
def executionRow : Instr → Option (Byte × Nat)
  | .describe => some (0x01, 0)
  | .setProfile => some (0x10, 28)
  | .getProfile => some (0x11, 1)
  | .setChannel => some (0x12, 5)
  | .getChannel => some (0x13, 1)
  | .rebase => some (0x14, 1)
  | .setRoute => some (0x20, 6)
  | .dropRoute => some (0x21, 1)
  | .copyRoutes => some (0x22, 0)
  | .swapRoutes => some (0x23, 0)
  | .getRoutes => some (0x24, 1)
  | .setAlert => some (0x30, 2)
  | .quietAlert => some (0x31, 0)
  | .readCounters => some (0x32, 2)
  | .clearCounters => some (0x33, 2)
  | .resync => some (0x40, 0)
  | .powerReset _ | .resetNRelease | .sampleFrame _ | .inletTruncation | .silenceTimerExpiry _
  | .quietTimerExpiry _ | .maxActiveExpiry _ | .ackFrame _ | .inboundDiscard _ | .inboundTruncation | .ackTimerExpiry
  | .announceTimerExpiry | .holdTimerExpiry | .transmissionComplete | .responseFrameSend | .announceFrameSend
  | .retransmittedFrame | .newEventFrame | .mirrorFrameSend | .requestFrame _ | .swapTaken | .unknownCommand
  | .timeBaseTick | .inletSyncPair | .inboundSyncPair | .restartWithParameters => none

/-- The events after records of channel `c` of the given kinds have been handed over now, in order (R102, R109). -/
def State.handed (s : State) (c : ChanNo) (kinds : List RecordKind) : Events :=
  kinds.foldl (fun e k => e.enter { kind := k, channel := c, time := s.time, loss := 0 }) s.events

/-- The part once records of channel `c` of the given kinds have been handed over now, in order: counted, reported, entered
(R102, R104, R109). -/
def State.handAll (s : State) (c : ChanNo) (kinds : List RecordKind) : State := kinds.foldl (fun u k => u.hand c k) s

/-- The two parts agree in all that a record handed over reads or writes: event path, alert, every global counter, tick. -/
def State.sameRecords (s t : State) : Prop :=
  s.events = t.events ∧ s.alert = t.alert ∧ s.counters.global = t.counters.global ∧ s.time = t.time

/-- The two parts agree in all but channels, counters, and what a record handed over writes. -/
def State.sameElsewhere (s t : State) : Prop :=
  s.power = t.power ∧ s.inlet = t.inlet ∧ s.groups = t.groups ∧ s.profiles = t.profiles ∧ s.link = t.link ∧
  s.mgmt = t.mgmt ∧ s.pending = t.pending

/-- The window counters of channel `c` once its window is abandoned: a window that was open counts, and no other (R57,
R61). -/
def State.abandonCounts (s : State) (c : ChanNo) : WindowCounts :=
  match (s.chan c).window.openWin with
  | none => s.counters.windows[c]
  | some _ => { s.counters.windows[c] with abandoned := satAdd s.counters.windows[c].abandoned 1 }

/-- `w` is the window of channel `c`, full once it holds the sample `x`: the open window, one sample short of its latched
length, or a window of length 1 that opens with the sample (R43, R45–R47). -/
def State.fullWith (s : State) (c : ChanNo) (x : Sample) (w : Window) : Prop :=
  let ch := s.chan c
  let p := s.profiles[ch.config.profile]
  let v := if x.overrange then 4095 else x.value.toNat
  let tier : Tier := if p.fixedTier then 0 else match ch.config.group with
    | some g => s.groups[g].tier
    | none => ch.window.tier
  (∃ o, ch.window.openWin = some o ∧ o.fill + 1 = o.latched ∧
    w = { latched := o.latched, fill := o.fill + 1, sum := o.sum + v, minimum := min o.minimum v,
          maximum := max o.maximum v, overrange := o.overrange || x.overrange }) ∨
  (ch.window.openWin = none ∧ p.lengths[tier] = 1 ∧
    w = { latched := 1, fill := 1, sum := v, minimum := v, maximum := v, overrange := x.overrange })

/-- The samples of a frame go to the channels of a route: that of lane `i` to channel base + `i`, in ascending order, as far
as frame and route both have lanes (R27). -/
def State.lanesTaken (s : State) (r : Route) (samples : List Sample) : State :=
  (List.range (min samples.length r.lanes)).foldl
    (fun u i => if h : r.base.val + i < 64 ∧ i < samples.length then u.deliverSample ⟨r.base.val + i, h.1⟩ samples[i] else u)
    s

/-- None of cases 1 to 3 of R109 takes the record: it is no VALUE, or its channel has no VALUE in queue or Held list and none
in flight. -/
def Events.passes (e : Events) (r : Record) : Prop :=
  r.isValue = true →
    (∀ x ∈ e.queue, x.isValueOf r.channel = false) ∧
    (∀ x ∈ (e.del r.channel).held, x.isValueOf r.channel = false) ∧ (e.del r.channel).inFlight = false

/-- A record finds its Held list full and is discarded: the list holds 3, and for a VALUE none of cases 1 to 3 of R109
applies (R109, R113). -/
def Events.discards (e : Events) (r : Record) : Prop :=
  3 ≤ (e.del r.channel).held.length ∧ e.passes r

/-- A staged value of channel `c` is made into a VALUE record and entered (R120, R122). -/
def Events.unstage (e : Events) (c : ChanNo) : Events :=
  match (e.del c).staged with
  | none => e
  | some v =>
    (e.setDel c { e.del c with staged := none }).enter
      { kind := .value v.value v.tier, channel := c, time := v.time, loss := 0 }

/-- The same for the part: the discard of a record that finds its Held list full is counted and reported (R113). -/
def State.unstage (s : State) (c : ChanNo) : State :=
  match (s.events.del c).staged with
  | none => s
  | some v =>
    State.enterRecord { s with events := s.events.setDel c { s.events.del c with staged := none } }
      { kind := .value v.value v.tier, channel := c, time := v.time, loss := 0 }

/-- A number in two bytes, most significant byte first (R186). -/
def twoBytes (n : Nat) : List Byte := [BitVec.ofNat 8 (n / 256), BitVec.ofNat 8 (n % 256)]

/-- A flag byte, bit 7 first. -/
def bits8 (b7 b6 b5 b4 b3 b2 b1 b0 : Bool) : Byte :=
  BitVec.ofBool b7 ++ BitVec.ofBool b6 ++ BitVec.ofBool b5 ++ BitVec.ofBool b4 ++ BitVec.ofBool b3 ++ BitVec.ofBool b2 ++
    BitVec.ofBool b1 ++ BitVec.ofBool b0

/-- The 28 bytes of a profile block, by the table of R191. -/
def profileBytes (n : Fin 16) (p : Profile) : List Byte :=
  [BitVec.ofNat 8 n.val] ++ p.lengths.toList.map (BitVec.ofNat 8) ++
  twoBytes p.b1 ++ twoBytes p.b2 ++ twoBytes p.b3 ++ twoBytes p.b4 ++
  [if p.fixedTier then 1 else 0] ++ twoBytes p.spreadLimit ++ [BitVec.ofNat 8 p.rejectLimit] ++ twoBytes p.onset ++
  twoBytes p.release ++
  [BitVec.ofNat 8 p.confirm, BitVec.ofNat 8 p.maxActive, BitVec.ofNat 8 p.driftInterval, BitVec.ofNat 8 p.driftStep] ++
  twoBytes p.reportDelta

/-- The five bytes of SET_CHANNEL for a channel and a configuration, by the codes of R191: channel, mode, profile, group,
polarity. -/
def channelRequestBytes (c : ChanNo) (k : ChannelConfig) : List Byte :=
  [BitVec.ofNat 8 c.val,
   (match k.mode with
    | .off => 0
    | .events => 1
    | .values => 2),
   BitVec.ofNat 8 k.profile.val,
   (match k.group with
    | none => 0
    | some g => BitVec.ofNat 8 (g.val + 1)),
   (match k.polarity with
    | .rising => 0
    | .falling => 1)]

/-- The six bytes of a channel's window counters: accepted, rejected, abandoned (R192). -/
def State.windowBytes (s : State) (c : ChanNo) : List Byte :=
  twoBytes s.counters.windows[c].accepted.toNat ++ twoBytes s.counters.windows[c].rejected.toNat ++
  twoBytes s.counters.windows[c].abandoned.toNat

/-- The 24 bytes of GET_CHANNEL, by the table of R192. -/
def State.channelBytes (s : State) (c : ChanNo) : List Byte :=
  let ch := s.chan c
  let d := s.events.del c
  let p := s.profiles[ch.config.profile]
  let tier : Tier := if p.fixedTier then 0 else match ch.config.group with
    | some g => s.groups[g].tier
    | none => ch.window.tier
  let (latched, fill) := match ch.window.openWin with
    | some w => (w.latched, w.fill)
    | none => (0, 0)
  [BitVec.ofNat 8 c.val,
   (match ch.config.mode with
    | .off => 0
    | .events => 1
    | .values => 2),
   BitVec.ofNat 8 ch.config.profile.val,
   (match ch.config.group with
    | none => 0
    | some g => BitVec.ofNat 8 (g.val + 1)),
   (match ch.config.polarity with
    | .rising => 0
    | .falling => 1),
   (match ch.run.state with
    | .off => 0
    | .settling => 1
    | .idle => 2
    | .pending => 3
    | .active => 4
    | .noisy => 5
    | .silent => 6),
   bits8 false d.inFlight d.staged.isSome (s.events.deferred.contains c) ch.window.openWin.isSome
     ch.window.lastMean.isSome ch.run.baseline.isSome ch.run.engaged] ++
  twoBytes (ch.run.baseline.getD 0) ++ twoBytes (ch.window.lastMean.getD 0) ++
  [BitVec.ofNat 8 tier.val, BitVec.ofNat 8 latched, BitVec.ofNat 8 fill, BitVec.ofNat 8 ch.run.confirm,
   BitVec.ofNat 8 ch.run.rejectRun, BitVec.ofNat 8 d.held.length, BitVec.ofNat 8 d.pendingLoss] ++
  s.windowBytes c

/-- The nine bytes of a route in GET_ROUTES, by the table of R192; a shadow entry holds no tracking fields. -/
def routeBytes (r : Route) (track : Option Tracking) : List Byte :=
  let (synced, silent, timer, expected) := match track with
    | some k => (k.synced, k.silent, k.timer, if k.synced then k.expected else 0)
    | none => (false, false, none, 0)
  [r.source, BitVec.ofNat 8 r.base.val, BitVec.ofNat 8 r.lanes,
   bits8 false false false false timer.isSome silent synced r.mirror] ++
  twoBytes r.silence ++ [expected] ++ twoBytes (timer.getD 0)

/-- The global counters in the order of the table of R182. -/
def tableOrder : List GlobalCounter :=
  [.inletTaken, .inletDiscards, .unrouted, .stale, .gaps, .laneMismatches, .recordsCreated, .heldDiscards,
   .resyncDiscards, .framesSent, .retransmitted, .stallEntries, .mirrorSent, .mirrorDiscards, .inboundDiscards,
   .refusedBusy, .discardedUnanswered, .cacheReplays]

/-- A bank maps the lane of the source onto the channel (R21). -/
def bankMaps (bank : List Route) (source : Byte) (lane : Nat) (c : ChanNo) : Prop :=
  ∃ r ∈ bank, r.source = source ∧ lane < r.lanes ∧ r.base.val + lane = c.val

/-- The swap takes the channel from a lane that feeds it, and the channel runs (R39). -/
def State.unroutes (s : State) (c : ChanNo) : Prop :=
  (∃ source lane, bankMaps (s.inlet.active.map (·.route)) source lane c ∧ ¬ bankMaps s.inlet.shadow source lane c) ∧
    (s.chan c).config.mode ≠ .off

/-- What a swap taken makes of the part, the Management Unit set aside: the banks have
changed places, the new active entries inherit the tracking of the same source (R38; an entry that begins is given the
expected sequence 0, assumption 11), the running channels that the swap unroutes are in SETTLING, their windows abandoned,
and a RELEASE(UNROUTED) has been handed over for each that was engaged, in ascending channel order; no other record and no
other count or report is made (R39, R57, R102). -/
def State.swapped (s t : State) : Prop :=
  t.inlet.swap = .none ∧ t.inlet.reception = s.inlet.reception ∧ t.inlet.shadow = s.inlet.active.map (·.route) ∧
  t.inlet.active = (s.inlet.shadow.map fun r =>
    { route := r
      track := match s.inlet.active.find? (·.route.source == r.source) with
        | none => { synced := false, expected := 0, timer := none, silent := false }
        | some a => { a.track with timer := if r.silence = 0 then none else a.track.timer.map (min · r.silence) } }) ∧
  (∀ c : ChanNo, s.unroutes c →
    (t.chan c).config = (s.chan c).config ∧
    (t.chan c).window = { (s.chan c).window with openWin := none, lastRate := 0, lastMean := none } ∧
    (t.chan c).run = { (s.chan c).run with
      state := .settling, engaged := false, confirm := 0, rejectRun := 0, baseline := none, cause := .settle,
      maxActive := none, quiet := none } ∧
    t.counters.windows[c] = s.abandonCounts c) ∧
  (∀ c : ChanNo, ¬ s.unroutes c → t.chan c = s.chan c ∧ t.counters.windows[c] = s.counters.windows[c]) ∧
  (∃ l : List ChanNo, l.Pairwise (· < ·) ∧ (∀ c, c ∈ l ↔ s.unroutes c ∧ (s.chan c).run.engaged = true) ∧
    t.sameRecords (l.foldl (fun u c => u.hand c (.release .unrouted none)) s)) ∧
  t.power = s.power ∧ t.time = s.time ∧ t.groups = s.groups ∧ t.profiles = s.profiles ∧ t.link = s.link ∧
  t.pending = s.pending

/-- The group rate of `g` once channel `c` has stored `rate` as its last rate (R53). -/
def State.pooledRate (s : State) (g : Fin 8) (c : ChanNo) (rate : Nat) : Nat :=
  min ((allChannels.map fun d =>
    if (s.chan d).config.group = some g ∧ (s.chan d).config.mode ≠ .off then
      if d = c then rate else (s.chan d).window.lastRate
    else 0).sum) 4095

/-! ### Bytes on OUTLET_TX (R187–R190) -/

/-- A frame of a kind and a payload: sync pair, kind, length, payload, and the CRC over kind, length and payload, high byte
first (R187). -/
def wireFrame (kind : Byte) (payload : List Byte) : List Byte :=
  let covered := [kind, BitVec.ofNat 8 payload.length] ++ payload
  [0xC3, 0x3C] ++ covered ++ twoBytes (crc16 covered).toNat

/-- The bytes in which a frame comes in, whatever its CRC: sync pair, kind, length, payload, the two CRC bytes received, high
byte first (R187). -/
def lineBytes (f : RawFrame) : List Byte :=
  [0xC3, 0x3C, f.kind, BitVec.ofNat 8 f.payload.length] ++ f.payload ++ twoBytes f.crc.toNat

/-- A receiver reads the bytes of a link into commands as R19 and R187 give, from HUNTING on: `commands` of a run of bytes
are those that `sync` and `frame` name, in order. A byte other than 0xC3 is passed over; after 0xC3 only 0x3C matters; a
frame is complete with its last CRC byte, and one cut short brings no more than its sync pair. -/
def readsLine (commands : List Byte → List Instr) (sync : Instr) (frame : RawFrame → Instr) : Prop :=
  commands [] = [] ∧ commands [0xC3] = [] ∧
  (∀ b rest, b ≠ 0xC3 → commands (b :: rest) = commands rest) ∧
  (∀ rest, commands (0xC3 :: 0xC3 :: rest) = commands (0xC3 :: rest)) ∧
  (∀ b rest, b ≠ 0xC3 → b ≠ 0x3C → commands (0xC3 :: b :: rest) = commands rest) ∧
  (∀ (f : RawFrame) rest, f.payload.length ≤ 255 →
    commands (lineBytes f ++ rest) = sync :: frame f :: commands rest) ∧
  (∀ tail, tail.length < 2 ∨ (∃ kind length more, tail = kind :: length :: more ∧ more.length < length.toNat + 2) →
    commands (0xC3 :: 0x3C :: tail) = [sync])

/-- The tick in three bytes, most significant byte first (R186). -/
def tickBytes (t : Tick) : List Byte := [t.extractLsb' 16 8, t.extractLsb' 8 8, t.extractLsb' 0 8]

/-- Kind code, qualifier, field A and field B of a record, by the tables of R189; an absent field is 0. The value of a RELEASE
is present when its reason is NORMAL, and then only. -/
def recordColumns : RecordKind → Nat × Nat × Nat × Nat
  | .onset value baseline => (1, 3, value, baseline)
  | .release reason value =>
    (2, if value.isSome then 3 else 1, value.getD 0,
      match reason with
      | .normal => 0
      | .stuck => 1
      | .silent => 2
      | .stopped => 3
      | .unrouted => 4
      | .rebase => 5)
  | .value value tier => (3, 3, value, tier.val)
  | .stuck value => (4, 2, value, 0)
  | .noisy spread => (5, 2, spread, 0)
  | .clear value => (6, 2, value, 0)
  | .silent => (7, 0, 0, 0)
  | .resumed => (8, 0, 0, 0)
  | .gap missing => (9, 2, missing, 0)
  | .rebase baseline cause =>
    (10, match cause with
      | .settle => 1
      | .forced => 2
      | .stuck => 3, baseline, 0)

/-- The eight bytes of an Event Record (R189): kind code and loss in byte 0, channel and qualifier in byte 1, the time in
bytes 2–4, field A in byte 5 and the high half of byte 6, field B in the low half of byte 6 and byte 7. -/
def recordBytes (r : Record) : List Byte :=
  let (code, qualifier, a, b) := recordColumns r.kind
  [BitVec.ofNat 8 (16 * code + r.loss % 16), BitVec.ofNat 8 (4 * r.channel.val + qualifier)] ++ tickBytes r.time ++
  [BitVec.ofNat 8 (a / 16), BitVec.ofNat 8 (16 * a + b / 256 % 16), BitVec.ofNat 8 b]

/-- An Event Frame on the wire: sequence number, record count, records (R187, R189). -/
def eventBytes (f : EventFrame) : List Byte :=
  wireFrame 0x20
    ([BitVec.ofNat 8 f.seq.toNat, BitVec.ofNat 8 f.records.length] ++ f.records.flatMap recordBytes)

/-- A Mirror Frame on the wire: the copied frame's source, sequence, lane count, and two bytes a lane, the overrange mark in
bit 15 and the value in bits 11–0 (R187, R188). -/
def mirrorBytes (m : SampleFrame) : List Byte :=
  wireFrame 0x21
    ([m.source, m.sequence, BitVec.ofNat 8 m.samples.length] ++
     m.samples.flatMap fun x => twoBytes ((if x.overrange then 32768 else 0) + x.value.toNat))

/-- A Response Frame on the wire: tag, command code echoed, status code, replayed flag, data (R187, R190). -/
def responseBytes (r : Response) : List Byte :=
  wireFrame 0x22
    ([r.tag, r.command,
      (match r.status with
       | .ok => 0x00
       | .busy => 0x01
       | .tagInUse => 0x02
       | .badCommand => 0x03
       | .badLength => 0x04
       | .badValue => 0x05
       | .badState => 0x06
       | .notFound => 0x07
       | .full => 0x08),
      (if r.replayed then 1 else 0)] ++ r.data)

/-- An Announce Frame on the wire: part code, revision, reset cause and its tag, tick (R187, R190). -/
def announceBytes (cause : ResetCause) (tick : Tick) : List Byte :=
  wireFrame 0x23
    ([0x63, 0x0A, 1] ++
     (match cause with
      | .power => [1, 0]
      | .pin => [2, 0]
      | .restart tag => [3, tag]
      | .resync tag => [4, tag]) ++ tickBytes tick)

end Sys2Proof.Machine
end

