-- ==== Sys2Proof/Certificates/Slice0/Obligations.lean ====
section
/-! DEFINITION. The statements for the provers. Each docstring cites the rules the statement rests on and, where it rests on
a choice of the model, the assumption by its number. The invariants and the words the statements use are in Safety. -/

section
open Sys2Proof Sys2Proof.Machine

/-! ### The whole part -/

/-- A step takes the front command and executes it on the state with the rest of the queue; on an empty queue the part
idles (the model's choice, assumption 16). -/
def Obligations.StepRunsFrontCommand : Prop :=
  ∀ s : State,
    (∀ (c : Instr) (rest : List Instr), step { s with pending := c :: rest } = exec c { s with pending := rest }) ∧
    step { s with pending := [] } = .next { s with pending := [] }

/-- Every command, in every state, gives a next state: the manual gives no condition in which the part stops. That a command
is answered even in a state in which its event cannot occur is the model's choice (assumption 2). The queue of waiting
commands is the model's own, and no command writes it (the model's choice, assumption 16). -/
def Obligations.EveryCommandGivesNextState : Prop :=
  ∀ (i : Instr) (s : State), ∃ t, exec i s = .next t ∧ t.pending = s.pending

/-- While a power reset holds the part, no command but a power reset and the release does anything (R41, R150, R169). -/
def Obligations.HeldPartTakesNoEvent : Prop :=
  ∀ (s : State) (i : Instr) (cause : PowerCause),
    s.power = .held cause → (∀ k, i ≠ .powerReset k) → i ≠ .resetNRelease → exec i s = .next s

/-- The configuration part of every channel is written by SET_CHANNEL and the power reset only (R2), and the Profile
Table by SET_PROFILE and the power reset only (R7). -/
def Obligations.ConfigurationWriters : Prop :=
  ∀ (s t : State) (i : Instr), s.heldOk → (∀ k, i ≠ .powerReset k) → exec i s = .next t →
    (i ≠ .setChannel → ∀ c, (t.chan c).config = (s.chan c).config) ∧
    (i ≠ .setProfile → t.profiles = s.profiles)

/-! ### Power and time -/

/-- POWER_RESET: every block takes its power-reset values, whatever it held (R2–R7, R11, R41, R62, R101, R125, R150, R154,
R169, R177, R182). RESET_N_RELEASE: a held part begins to run, and the link enters DOWN with an Announce Frame due and the
announce timer at 50 ms, nothing else changing (R127, R150); on a running part there is no release (the model's choice,
assumption 2). The queue of waiting commands stays. -/
def Obligations.PowerResetAndRelease : Prop :=
  (∀ (s : State) (cause : PowerCause), ∃ t, exec (.powerReset cause) s = .next t ∧
    t.power = .held cause ∧ t.time = 0 ∧ t.pending = s.pending ∧
    t.inlet = { reception := .hunting, swap := .none, active := [], shadow := [] } ∧
    (∀ c, t.chan c =
      { config := { mode := .off, profile := 0, group := none, polarity := .rising }
        window := { openWin := none, tier := 0, lastRate := 0, lastMean := none }
        run := { state := .off, engaged := false, confirm := 0, rejectRun := 0, baseline := none, cause := .settle,
                 maxActive := none, quiet := none, lastValue := none } }) ∧
    (∀ g : Fin 8, t.groups[g] = { tier := 0, members := 0 }) ∧
    (∀ n : Fin 16, t.profiles[n] =
      { lengths := #v[64, 32, 16, 8, 4], b1 := 8, b2 := 24, b3 := 60, b4 := 140, fixedTier := false,
        spreadLimit := 200, rejectLimit := 4, onset := 120, release := 60, confirm := 2, maxActive := 200,
        driftInterval := 20, driftStep := 2, reportDelta := 16 }) ∧
    t.events.queue = [] ∧ t.events.deferred = [] ∧
    (∀ c, t.events.del c = { held := [], pendingLoss := 0, inFlight := false, staged := none }) ∧
    t.link.state = .down ∧ t.link.resetCause = (match cause with | .power => .power | .pin => .pin) ∧
    t.link.credits = 0 ∧ t.link.replay = [] ∧ t.link.roundCount = 0 ∧ t.link.roundLeft = 0 ∧ t.link.ackTimer = none ∧
    t.link.mirror = [] ∧ t.link.reception = .hunting ∧ t.link.lane = none ∧
    t.mgmt = { requests := [], responses := [], cache := [] } ∧
    t.alert =
      { mode := .pulse, hold := 50, line := false, holdTimer := none
        causes := { stuck := false, noisy := false, silent := false, gap := false, loss := false, stall := false } } ∧
    (∀ k, t.counters.get k = 0) ∧
    (∀ c : ChanNo, t.counters.windows[c] = { accepted := 0, rejected := 0, abandoned := 0 })) ∧
  (∀ s : State,
    (∀ cause, s.power = .held cause → s.heldOk →
      exec .resetNRelease s =
        .next { s with power := .running, link := { s.link with announceDue := true, announceTimer := some 50 } }) ∧
    (s.power = .running → exec .resetNRelease s = .next s))

/-- The state right after reset meets every invariant of the model, the part runs, and the link is DOWN with cause POWER,
its first Announce Frame due (assumption 1). -/
def Obligations.ResetStateMeetsInvariants : Prop :=
  State.reset.channelsConsistent ∧ State.reset.levelsInRange ∧ State.reset.groupsConsistent ∧ State.reset.routesOk ∧
  State.reset.events.ordered ∧ State.reset.oneValueEach ∧ State.reset.linkOk ∧ State.reset.mgmtOk ∧
  State.reset.alert.ok ∧ State.reset.heldOk ∧ State.reset.power = .running ∧ State.reset.link.state = .down ∧
  State.reset.link.resetCause = .power ∧ State.reset.link.announceDue = true ∧
  State.reset.link.announceTimer = some 50 ∧ State.reset.pending = []

/-- TIME_BASE_TICK: the 24-bit counter goes on by one and wraps, every running timer loses one millisecond, and nothing
else changes (R29, R77, R78, R128, R139, R169, R177). A timer at 0 waits for its expiry's own command (the model's form,
assumption 3); the receivers' watch counts at most two ticks (assumption 7). -/
def Obligations.TickCountsTimers : Prop :=
  ∀ s : State, s.power = .running → ∃ t, exec .timeBaseTick s = .next t ∧
    t.time.toNat = (s.time.toNat + 1) % 2 ^ 24 ∧
    (∀ c, t.chan c = { s.chan c with run := { (s.chan c).run with
      maxActive := (s.chan c).run.maxActive.map (· - 1), quiet := (s.chan c).run.quiet.map (· - 1) } }) ∧
    t.inlet = { s.inlet with
      reception := match s.inlet.reception with
        | .hunting => .hunting
        | .receiving n => .receiving (min (n + 1) 2)
      active := s.inlet.active.map fun a => { a with track := { a.track with timer := a.track.timer.map (· - 1) } } } ∧
    t.link = { s.link with
      reception := match s.link.reception with
        | .hunting => .hunting
        | .receiving n => .receiving (min (n + 1) 2)
      ackTimer := s.link.ackTimer.map (· - 1)
      announceTimer := s.link.announceTimer.map (· - 1) } ∧
    t.alert = { s.alert with holdTimer := s.alert.holdTimer.map (· - 1) } ∧
    t.power = s.power ∧ t.groups = s.groups ∧ t.profiles = s.profiles ∧ t.events = s.events ∧ t.mgmt = s.mgmt ∧
    t.counters = s.counters ∧ t.pending = s.pending

/-! ### Inlet Receiver -/

/-- INLET_SYNC_PAIR and INBOUND_SYNC_PAIR begin a reception unless one is in progress; INLET_TRUNCATION and
INBOUND_TRUNCATION drop and count a frame in reception for which two ticks have been counted, on the inlet making a waiting
swap due; INBOUND_DISCARD counts a complete frame that fails a check and ends its reception. Nothing else changes (R19, R37,
R146; the count of ticks is the model's form, assumption 7, and the due swap's own command assumption 6). -/
def Obligations.ReceptionBeginsAndEnds : Prop :=
  (∀ s : State, s.power = .running →
    exec .inletSyncPair s =
      .next { s with inlet := { s.inlet with
        reception := if s.inlet.reception = .hunting then .receiving 0 else s.inlet.reception } } ∧
    exec .inboundSyncPair s =
      .next { s with link := { s.link with
        reception := if s.link.reception = .hunting then .receiving 0 else s.link.reception } }) ∧
  (∀ (s : State) (n : Nat), s.power = .running → 2 ≤ n →
    (s.inlet.reception = .receiving n →
      exec .inletTruncation s =
        .next ({ s with inlet := { s.inlet with
          reception := .hunting, swap := if s.inlet.swap = SwapState.waiting then .due else s.inlet.swap } }.raise
          .inletDiscards)) ∧
    (s.link.reception = .receiving n →
      exec .inboundTruncation s =
        .next ({ s with link := { s.link with reception := .hunting } }.raise .inboundDiscards))) ∧
  (∀ (s : State) (f : RawFrame) (e : InboundError), s.power = .running → checkInbound f = .discard e →
    exec (.inboundDiscard f) s =
      .next { s with link := { s.link with reception := .hunting }, counters := s.counters.raiseBy .inboundDiscards 1 })

/-- The five checks of R20 pass exactly the Sample Frames of 1 to 16 lanes laid out as R188 gives, and read back every
field of them. The bytes on INLET_RX are read into sync pairs and frames as R19 and R187 give: each sync pair is an
INLET_SYNC_PAIR, each complete frame a SAMPLE_FRAME with its kind, payload and CRC (the commands that bytes stand for are
assumption 8). -/
def Obligations.SampleChecksPassExactlySampleFrames : Prop :=
  (∀ (f : RawFrame) (m : SampleFrame),
    checkSample f = .ok m ↔ f = mkSample m ∧ 1 ≤ m.samples.length ∧ m.samples.length ≤ 16) ∧
  readsLine inletCommands .inletSyncPair .sampleFrame ∧
  (∀ (bytes : List Byte) (i : Instr), i ∈ inletCommands bytes → i.wellFormed = true)

/-- The four checks of R146 pass exactly the Ack Frames and Request Frames laid out as R190 gives, and read back every
field of them. The bytes on OUTLET_RX are read as those of the inlet link are (R146, R187): each sync pair is an
INBOUND_SYNC_PAIR, each complete frame an ACK_FRAME, a REQUEST_FRAME or an INBOUND_DISCARD, by those checks (the commands
that bytes stand for are assumption 8). -/
def Obligations.InboundChecksPassExactlyAckAndRequestFrames : Prop :=
  (∀ (f : RawFrame) (a : AckFields),
    checkInbound f = .ack a ↔ ∃ grant : BitVec 4, f = mkAck a.ack grant a.resend ∧ a.grant = grant.toNat) ∧
  (∀ (f : RawFrame) (tag command : Byte) (params : List Byte),
    checkInbound f = .request tag command params ↔ f = mkRequest tag command params) ∧
  readsLine inboundCommands .inboundSyncPair (fun f =>
    match checkInbound f with
    | .ack _ => .ackFrame f
    | .request _ _ _ => .requestFrame f
    | .discard _ => .inboundDiscard f) ∧
  (∀ (bytes : List Byte) (i : Instr), i ∈ inboundCommands bytes → i.wellFormed = true)

/-- SAMPLE_FRAME, not taken: a frame that fails a check (R20), one whose source has no active entry (R23), and a stale one
(R24, R26) are counted, each in its own counter, and nothing else changes but that the reception ends, which makes a
waiting swap due (R19, R37; assumption 6). -/
def Obligations.UntakenFrameIsOnlyCounted : Prop :=
  ∀ (s : State) (f : RawFrame), s.power = .running → s.inlet.swap ≠ .due →
    let t : State := { s with inlet := { s.inlet with
      reception := .hunting, swap := if s.inlet.swap = .waiting then .due else s.inlet.swap } }
    (∀ e, checkSample f = .error e → exec (.sampleFrame f) s = .next (t.raise .inletDiscards)) ∧
    (∀ m, checkSample f = .ok m → (∀ a ∈ s.inlet.active, a.route.source ≠ m.source) →
      exec (.sampleFrame f) s = .next (t.raise .unrouted)) ∧
    (∀ m a, checkSample f = .ok m → s.inlet.lookup m.source = some a → a.track.synced = true →
      128 ≤ (m.sequence - a.track.expected).toNat → exec (.sampleFrame f) s = .next (t.raise .stale))

/-- SAMPLE_FRAME, taken (R23–R25, R27–R29, R31, R33): the sequence is tracked and the silence timer of a watched route
restarts; then, each step on what the one before left (R28), the silent channels of a silent route resume in ascending
order, a gap creates its GAP record on the base channel and abandons the open windows of the range's running channels, and
lane i goes to channel base + i in ascending order. The frame counters move, the mirror copy is offered, and no other route,
channel, table or queue of requests is touched. The reception ends, which makes a waiting swap due (R19, R37). A frame that
finds a due swap, taken or not, is handled as after SWAP_TAKEN (R37; the due swap is assumption 6). -/
def Obligations.TakenFrameTracksAndCounts : Prop :=
  (∀ (s : State) (f : RawFrame), s.power = .running → s.inlet.swap = .due →
    ∃ u, exec .swapTaken s = .next u ∧ u.inlet.swap = .none ∧ u.power = .running ∧
      exec (.sampleFrame f) s = exec (.sampleFrame f) u) ∧
  ∀ (s : State) (f : RawFrame) (m : SampleFrame) (a : ActiveRoute),
    s.power = .running → s.inlet.swap ≠ .due → checkSample f = .ok m → s.inlet.lookup m.source = some a →
    (a.track.synced = true → (m.sequence - a.track.expected).toNat ≤ 127) →
    ∃ t, exec (.sampleFrame f) s = .next t ∧
      t.inlet.reception = .hunting ∧
      t.inlet.swap = (if s.inlet.swap = .waiting then .due else s.inlet.swap) ∧ t.inlet.shadow = s.inlet.shadow ∧
      t.inlet.active = (s.inlet.active.map fun b =>
        if b.route.source = m.source then
          { b with track := { synced := true, expected := m.sequence + 1
                              timer := if a.route.silence = 0 then b.track.timer else some a.route.silence
                              silent := if a.track.silent then false else b.track.silent } }
        else b) ∧
      (let tracked := s.trackFrame a.route m.sequence
       let resumed :=
         if a.track.silent then
           a.route.range.foldl State.resumeEvent (tracked.modTrack a.route.source fun k => { k with silent := false })
         else tracked
       let gapped :=
         if a.track.synced = true ∧ m.sequence ≠ a.track.expected then
           a.route.range.foldl (fun u c => if (u.chan c).running then u.abandon c else u)
             ((resumed.hand a.route.base (.gap (m.sequence - a.track.expected).toNat)).raise .gaps)
         else resumed
       let delivered := gapped.lanesTaken a.route m.samples
       t.channels = delivered.channels ∧ t.groups = delivered.groups ∧ t.events = delivered.events ∧
       t.alert = delivered.alert ∧ t.counters.windows = delivered.counters.windows ∧
       t.counters.get .recordsCreated = delivered.counters.get .recordsCreated ∧
       t.counters.get .heldDiscards = delivered.counters.get .heldDiscards) ∧
      (∀ c, c ∈ a.route.range ↔ a.route.base.val ≤ c.val ∧ c.val < a.route.base.val + a.route.lanes) ∧
      a.route.range.Pairwise (· < ·) ∧
      (let gap := a.track.synced = true ∧ m.sequence ≠ a.track.expected
       t.counters.get .inletTaken = satAdd (s.counters.get .inletTaken) 1 ∧
       t.counters.get .gaps = (if gap then satAdd (s.counters.get .gaps) 1 else s.counters.get .gaps) ∧
       t.counters.get .laneMismatches =
         (if m.samples.length = a.route.lanes then s.counters.get .laneMismatches
          else satAdd (s.counters.get .laneMismatches) 1)) ∧
      (let joins := a.route.mirror = true ∧ s.link.state = .up ∧ s.link.mirror.length < 2
       t.link = { s.link with mirror := if joins then s.link.mirror ++ [m] else s.link.mirror } ∧
       t.counters.get .mirrorDiscards =
         (if a.route.mirror = true ∧ ¬ joins then satAdd (s.counters.get .mirrorDiscards) 1
          else s.counters.get .mirrorDiscards)) ∧
      (∀ k ∈ [GlobalCounter.inletDiscards, .unrouted, .stale, .resyncDiscards, .framesSent, .retransmitted,
        .stallEntries, .mirrorSent, .inboundDiscards, .refusedBusy, .discardedUnanswered, .cacheReplays],
        t.counters.get k = s.counters.get k) ∧
      (∀ c, (t.chan c).config = (s.chan c).config) ∧ (∀ c, a.route.covers c = false → t.chan c = s.chan c) ∧
      (∀ g : Fin 8, t.groups[g].members = s.groups[g].members) ∧ t.power = s.power ∧ t.time = s.time ∧
      t.profiles = s.profiles ∧ t.mgmt = s.mgmt ∧ t.pending = s.pending

/-- SILENCE_TIMER_EXPIRY (R30, R81): the route is declared silent, every running channel of its range ends in SILENT with
its baseline, cause, last published value, mean, rate and tier kept and its open window abandoned and counted (R57, R61), and
no other channel changes. For each of them, in ascending channel order, a RELEASE(SILENT) is handed over when it was engaged,
and then its SILENT, with the counts and reports of RecordsCountedAndCausesReported (R30, R65, R102, R104). A timer that has
not run out does not expire (the model's choice, assumption 2; the form of a due expiry is assumption 3). -/
def Obligations.SilenceExpiryReachesItsRange : Prop :=
  ∀ (s : State) (source : Byte) (a : ActiveRoute), s.power = .running → s.inlet.lookup source = some a →
    (a.track.timer = some 0 → ∃ t, exec (.silenceTimerExpiry source) s = .next t ∧
      t.inlet = { s.inlet with active := s.inlet.active.map fun b =>
        if b.route.source = source then { b with track := { b.track with silent := true, timer := none } } else b } ∧
      (∀ c, a.route.covers c = true → (s.chan c).config.mode ≠ .off →
        t.chan c = { s.chan c with
          window := { (s.chan c).window with openWin := none }
          run := { (s.chan c).run with
            state := .silent, engaged := false, confirm := 0, rejectRun := 0, quiet := none
            maxActive := if (s.chan c).run.engaged then none else (s.chan c).run.maxActive } } ∧
        t.counters.windows[c] = s.abandonCounts c) ∧
      (∀ c, a.route.covers c = false ∨ (s.chan c).config.mode = .off →
        t.chan c = s.chan c ∧ t.counters.windows[c] = s.counters.windows[c]) ∧
      (∃ reached : List ChanNo,
        reached.Pairwise (· < ·) ∧ (∀ c, c ∈ reached ↔ a.route.covers c = true ∧ (s.chan c).config.mode ≠ .off) ∧
        let told := reached.foldl (fun u c =>
          (if (s.chan c).run.engaged then u.hand c (.release .silent none) else u).hand c .silent) s
        t.events = told.events ∧ t.alert = told.alert ∧ ∀ k, t.counters.get k = told.counters.get k) ∧
      t.power = s.power ∧ t.time = s.time ∧ t.groups = s.groups ∧ t.profiles = s.profiles ∧ t.link = s.link ∧
      t.mgmt = s.mgmt ∧ t.pending = s.pending) ∧
    (a.track.timer ≠ some 0 → exec (.silenceTimerExpiry source) s = .next s)

/-! ### Window Engine -/

/-- A sample taken while the window stays open after it: it opens a window at the length of the tier in use, or adds to the
open one; an overrange sample counts as 4095. Nothing else changes (R42–R46). -/
def Obligations.SampleFillsWindow : Prop :=
  ∀ (s : State) (c : ChanNo) (x : Sample),
    let ch := s.chan c
    let v := if x.overrange then 4095 else x.value.toNat
    (ch.run.state = .off ∨ ch.run.state = .silent → s.deliverSample c x = s) ∧
    (ch.run.state ≠ .off → ch.run.state ≠ .silent →
      (∀ w, ch.window.openWin = some w → w.fill + 1 < w.latched →
        let w' : Window :=
          { latched := w.latched, fill := w.fill + 1, sum := w.sum + v, minimum := min w.minimum v,
            maximum := max w.maximum v, overrange := w.overrange || x.overrange }
        s.deliverSample c x = s.setChan c { ch with window := { ch.window with openWin := some w' } }) ∧
      (ch.window.openWin = none →
        let p := s.profiles[ch.config.profile]
        let tier : Tier := if p.fixedTier then 0 else match ch.config.group with
          | some g => s.groups[g].tier
          | none => ch.window.tier
        1 < p.lengths[tier] →
        let w' : Window :=
          { latched := p.lengths[tier], fill := 1, sum := v, minimum := v, maximum := v, overrange := x.overrange }
        s.deliverSample c x = s.setChan c { ch with window := { ch.window with openWin := some w' } }))

/-- A sample that fills the window to its latched length closes it, be it a window that was open or one of length 1 that the
sample opens (R43). With the overrange flag, or a spread above the spread limit, it is rejected: the reject run and the
rejected counter rise, and Channel Logic takes the spread (R47, R48). -/
def Obligations.FullWindowRejected : Prop :=
  ∀ (s : State) (c : ChanNo) (x : Sample) (w : Window),
    let ch := s.chan c
    let p := s.profiles[ch.config.profile]
    ch.run.state.takesSamples = true → s.fullWith c x w →
    let spread := w.maximum - w.minimum
    w.overrange = true ∨ p.spreadLimit < spread →
    ∃ u : State, s.deliverSample c x = u.takeRejected c p spread ∧
      u.chan c = { ch with window := { ch.window with openWin := none }
                           run := { ch.run with rejectRun := min (ch.run.rejectRun + 1) 15 } } ∧
      u.counters.windows[c] =
        { s.counters.windows[c] with rejected := satAdd s.counters.windows[c].rejected 1 } ∧
      (∀ d ≠ c, u.chan d = s.chan d ∧ u.counters.windows[d] = s.counters.windows[d]) ∧
      u.counters.global = s.counters.global ∧ u.power = s.power ∧ u.time = s.time ∧ u.inlet = s.inlet ∧
      u.groups = s.groups ∧ u.profiles = s.profiles ∧ u.events = s.events ∧ u.link = s.link ∧ u.mgmt = s.mgmt ∧
      u.alert = s.alert ∧ u.pending = s.pending

/-- A sample that fills the window otherwise, be it a window that was open or one of length 1 that the sample opens (R43),
has it accepted: its mean is the sum divided by the length, rounded down; the rate is the distance from the last accepted
mean; the tier of the channel, or of its group through the pooled rate, follows the breakpoints unless the tier is fixed;
Channel Logic takes mean and tier. A rate falls into the one band of ordered breakpoints that holds it (R49–R53, R56). -/
def Obligations.FullWindowAccepted : Prop :=
  (∀ (p : Profile) (rate : Nat), p.b1 ≤ p.b2 → p.b2 ≤ p.b3 → p.b3 ≤ p.b4 →
    (p.tierOf rate = 0 ↔ rate < p.b1) ∧
    (p.tierOf rate = 1 ↔ p.b1 ≤ rate ∧ rate < p.b2) ∧
    (p.tierOf rate = 2 ↔ p.b2 ≤ rate ∧ rate < p.b3) ∧
    (p.tierOf rate = 3 ↔ p.b3 ≤ rate ∧ rate < p.b4) ∧
    (p.tierOf rate = 4 ↔ p.b4 ≤ rate)) ∧
  (∀ (s : State) (c : ChanNo) (x : Sample) (w : Window),
    let ch := s.chan c
    let p := s.profiles[ch.config.profile]
    ch.run.state.takesSamples = true → s.fullWith c x w →
    w.overrange = false → w.maximum - w.minimum ≤ p.spreadLimit →
    let mean := w.sum / w.latched
    let rate := match ch.window.lastMean with
      | none => 0
      | some m => ((mean : Int) - m).natAbs
    ∃ (u : State) (tier : Tier), s.deliverSample c x = u.takeAccepted c p mean tier ∧
      (u.chan c).config = ch.config ∧ (u.chan c).run = { ch.run with rejectRun := 0 } ∧
      (u.chan c).window.openWin = none ∧ (u.chan c).window.lastRate = rate ∧ (u.chan c).window.lastMean = some mean ∧
      (p.fixedTier = true → tier = 0 ∧ (u.chan c).window.tier = ch.window.tier ∧ u.groups = s.groups) ∧
      (p.fixedTier = false → ch.config.group = none →
        tier = p.tierOf rate ∧ (u.chan c).window.tier = tier ∧ u.groups = s.groups) ∧
      (∀ g, p.fixedTier = false → ch.config.group = some g →
        tier = p.tierOf (s.pooledRate g c rate) ∧ (u.chan c).window.tier = ch.window.tier ∧
        u.groups[g] = { s.groups[g] with tier := tier } ∧ ∀ h : Fin 8, h ≠ g → u.groups[h] = s.groups[h]) ∧
      u.counters.windows[c] =
        { s.counters.windows[c] with accepted := satAdd s.counters.windows[c].accepted 1 } ∧
      (∀ d ≠ c, u.chan d = s.chan d ∧ u.counters.windows[d] = s.counters.windows[d]) ∧
      u.counters.global = s.counters.global ∧ u.power = s.power ∧ u.time = s.time ∧ u.inlet = s.inlet ∧
      u.profiles = s.profiles ∧ u.events = s.events ∧ u.link = s.link ∧ u.mgmt = s.mgmt ∧ u.alert = s.alert ∧
      u.pending = s.pending)

/-! ### Channel Logic -/

/-- An accepted result in SETTLING, IDLE, PENDING or ACTIVE (R64, R70–R73, R77, R78, R91): the state the channel enters,
its fields, and the records handed over, in order, each counted and reported as RecordsCountedAndCausesReported says (R102,
R104, R113). No other channel, and nothing outside event path, alert and global counters, changes. -/
def Obligations.AcceptedResultMovesState : Prop :=
  ∀ (s : State) (c : ChanNo) (p : Profile) (mean b n : Nat),
    let ch := s.chan c
    let dev : Int := match ch.config.polarity with
      | .rising => (mean : Int) - b
      | .falling => (b : Int) - mean
    let t := s.acceptedMove c p mean
    let quiet := s.profiles[ch.config.profile].driftInterval * 100
    (∀ d ≠ c, t.chan d = s.chan d) ∧ t.sameElsewhere s ∧ t.counters.windows = s.counters.windows ∧
    (ch.run.state = .settling →
      t.chan c = { ch with run := { ch.run with state := .idle, baseline := some mean, confirm := 0, quiet := some quiet } } ∧
      t.sameRecords (s.handAll c [.rebase mean ch.run.cause])) ∧
    (ch.run.baseline = some b →
      (ch.run.state = .idle → dev < p.onset → t = s) ∧
      (ch.run.state = .pending → dev < p.onset →
        t.chan c = { ch with run := { ch.run with state := .idle, confirm := 0, quiet := some quiet } } ∧
        t.sameRecords s) ∧
      (ch.run.state = .idle ∧ n = 1 ∨ ch.run.state = .pending ∧ n = ch.run.confirm + 1 → p.onset ≤ dev →
        (p.confirm ≤ n →
          t.chan c = { ch with run := { ch.run with
            state := .active, engaged := true, confirm := 0, quiet := none
            maxActive := if p.maxActive = 0 then none else some (p.maxActive * 100) } } ∧
          t.sameRecords (s.handAll c [.onset mean b])) ∧
        (n < p.confirm →
          t.chan c = { ch with run := { ch.run with state := .pending, confirm := n, quiet := none } } ∧
          t.sameRecords s)) ∧
      (ch.run.state = .active → p.release ≤ dev → t = s) ∧
      (ch.run.state = .active → dev < p.release →
        t.chan c = { ch with run := { ch.run with
          state := .idle, engaged := false, maxActive := none, confirm := 0, quiet := some quiet } } ∧
        t.sameRecords (s.handAll c [.release .normal (some mean)])))

/-- The first accepted result in NOISY (R75, R92): CLEAR, then the first case of the table of R75 that applies,
with the counts and reports of the records handed over (R102, R113). Nothing else changes. -/
def Obligations.AcceptedResultEndsNoisy : Prop :=
  ∀ (s : State) (c : ChanNo) (p : Profile) (mean b : Nat),
    let ch := s.chan c
    let dev : Int := match ch.config.polarity with
      | .rising => (mean : Int) - b
      | .falling => (b : Int) - mean
    let t := s.acceptedMove c p mean
    let quiet := s.profiles[ch.config.profile].driftInterval * 100
    ch.run.state = .noisy →
    (∀ d ≠ c, t.chan d = s.chan d) ∧ t.sameElsewhere s ∧ t.counters.windows = s.counters.windows ∧
    (ch.run.baseline = none →
      t.chan c = { ch with run := { ch.run with state := .idle, baseline := some mean, confirm := 0, quiet := some quiet } } ∧
      t.sameRecords (s.handAll c [.clear mean, .rebase mean ch.run.cause])) ∧
    (ch.run.baseline = some b →
      (ch.run.engaged = true → dev < p.release →
        t.chan c = { ch with run := { ch.run with
          state := .idle, engaged := false, maxActive := none, confirm := 0, quiet := some quiet } } ∧
        t.sameRecords (s.handAll c [.clear mean, .release .normal (some mean)])) ∧
      (ch.run.engaged = true → p.release ≤ dev →
        t.chan c = { ch with run := { ch.run with state := .active } } ∧ t.sameRecords (s.handAll c [.clear mean])) ∧
      (ch.run.engaged = false → p.onset ≤ dev → p.confirm ≤ 1 →
        t.chan c = { ch with run := { ch.run with
          state := .active, engaged := true, confirm := 0, quiet := none
          maxActive := if p.maxActive = 0 then none else some (p.maxActive * 100) } } ∧
        t.sameRecords (s.handAll c [.clear mean, .onset mean b])) ∧
      (ch.run.engaged = false → p.onset ≤ dev → 1 < p.confirm →
        t.chan c = { ch with run := { ch.run with state := .pending, confirm := 1, quiet := none } } ∧
        t.sameRecords (s.handAll c [.clear mean])) ∧
      (ch.run.engaged = false → dev < p.onset →
        t.chan c = { ch with run := { ch.run with state := .idle, confirm := 0, quiet := some quiet } } ∧
        t.sameRecords (s.handAll c [.clear mean])))

/-- A rejected result (R74): at or above the reject limit a channel that is not yet NOISY enters NOISY with one NOISY
record, which is counted as created and reported to the Alert Unit as it is handed over (R102, R104); below it a PENDING
channel falls back to IDLE, and the others stay. Nothing else changes. -/
def Obligations.RejectedResultMovesState : Prop :=
  ∀ (s : State) (c : ChanNo) (p : Profile) (spread : Nat),
    let ch := s.chan c
    let t := s.takeRejected c p spread
    let quiet := s.profiles[ch.config.profile].driftInterval * 100
    (∀ d ≠ c, t.chan d = s.chan d) ∧ t.sameElsewhere s ∧ t.counters.windows = s.counters.windows ∧
    (ch.run.state = .noisy → t = s) ∧
    (ch.run.state ∈ [ChanState.settling, .idle, .pending, .active] → p.rejectLimit ≤ ch.run.rejectRun →
      t.chan c = { ch with run := { ch.run with state := .noisy, confirm := 0, quiet := none } } ∧
      t.sameRecords (s.handAll c [.noisy spread])) ∧
    (ch.run.state = .pending → ch.run.rejectRun < p.rejectLimit →
      t.chan c = { ch with run := { ch.run with state := .idle, confirm := 0, quiet := some quiet } } ∧
      t.sameRecords s) ∧
    (ch.run.state ∈ [ChanState.settling, .idle, .active] → ch.run.rejectRun < p.rejectLimit → t = s)

/-- A VALUE record is published at an accepted result exactly under the three conditions of R76, after every other record
of the result, and is counted as created, a discard at a full Held list counted and reported (R102, R113); the last published
value becomes the mean. Nothing else changes. -/
def Obligations.ValuePublication : Prop :=
  ∀ (s : State) (c : ChanNo) (p : Profile) (mean : Nat) (tier : Tier),
    let ch := s.chan c
    let u := s.acceptedMove c p mean
    let t := s.takeAccepted c p mean tier
    let publish := ch.config.mode = .values ∧ ch.run.state ∈ [ChanState.idle, .pending, .active] ∧
      ∀ v, ch.run.lastValue = some v → p.reportDelta ≤ ((mean : Int) - v).natAbs
    (publish →
      t.chan c = { u.chan c with run := { (u.chan c).run with lastValue := some mean } } ∧
      t.sameRecords (u.handAll c [.value mean tier]) ∧ (∀ d ≠ c, t.chan d = u.chan d) ∧
      t.sameElsewhere u ∧ t.counters.windows = u.counters.windows) ∧
    (¬ publish → t = u)

/-- The records that the channel events create, in their order: silence (R30), resumption (R31, R82), unrouting (R83),
max-active expiry (R79) and REBASE (R84); a RELEASE is created for an engaged channel and no other (R65), and each is
counted and reported as it is handed over (R102, R104, R113). A resume event takes a SILENT channel to IDLE when its
baseline is valid and to SETTLING with cause SETTLE when it is not, and passes a channel in another state over (R31, R67,
R77, R82). Silence, unrouting, max-active expiry and REBASE abandon the channel's window, which is discarded and counted
when it is open, and nothing else follows from an abandonment (R57, R58, R61). -/
def Obligations.ChannelEventsAndTheirRecords : Prop :=
  (∀ (s : State) (c : ChanNo),
    let ch := s.chan c
    let released (x : ReleaseReason) : List RecordKind := if ch.run.engaged then [.release x none] else []
    (ch.config.mode ≠ .off → (s.silenceEvent c).sameRecords (s.handAll c (released .silent ++ [.silent]))) ∧
    (ch.run.state = .silent → (s.resumeEvent c).sameRecords (s.handAll c [.resumed])) ∧
    (ch.config.mode ≠ .off → (s.unrouteEvent c).sameRecords (s.handAll c (released .unrouted))) ∧
    (∀ m, ch.window.lastMean = some m → ch.run.engaged = true →
      (s.stuckExpiry c).sameRecords (s.handAll c [.stuck m, .release .stuck none])) ∧
    (s.forceSettling c).sameRecords (s.handAll c (released .rebase)) ∧
    ∀ t ∈ [s.silenceEvent c, s.resumeEvent c, s.unrouteEvent c, s.stuckExpiry c, s.forceSettling c], t.sameElsewhere s) ∧
  (∀ (s : State) (c : ChanNo),
    let ch := s.chan c
    let t := s.resumeEvent c
    (∀ d ≠ c, t.chan d = s.chan d) ∧ (ch.run.state ≠ .silent → t = s) ∧
    (∀ b, ch.run.state = .silent → ch.run.baseline = some b →
      t.chan c = { ch with run := { ch.run with
        state := .idle, confirm := 0, quiet := some (s.profiles[ch.config.profile].driftInterval * 100) } }) ∧
    (ch.run.state = .silent → ch.run.baseline = none →
      t.chan c = { ch with
        window := { ch.window with lastMean := none, lastRate := 0 }
        run := { ch.run with state := .settling, engaged := false, confirm := 0, rejectRun := 0, baseline := none,
                             cause := .settle, maxActive := none, quiet := none } })) ∧
  (∀ (s : State) (c : ChanNo),
    let counted (t : State) : Prop :=
      (t.chan c).window.openWin = none ∧ t.counters.windows[c] = s.abandonCounts c ∧
      ∀ d ≠ c, t.counters.windows[d] = s.counters.windows[d]
    counted (s.abandon c) ∧
    (∃ windows, s.abandon c =
      { s.setChan c { s.chan c with window := { (s.chan c).window with openWin := none } } with
        counters := { s.counters with windows := windows } }) ∧
    ((s.chan c).config.mode ≠ .off → counted (s.silenceEvent c) ∧ counted (s.unrouteEvent c)) ∧
    counted (s.stuckExpiry c) ∧ counted (s.forceSettling c))

/-- One drift step: the baseline moves toward the last accepted mean by the smaller of the drift step and the distance, and
the quiet timer restarts with the drift interval; nothing else of the part changes (R97). -/
def Obligations.DriftStep : Prop :=
  ∀ (s : State) (c : ChanNo) (b m : Nat),
    let ch := s.chan c
    let p := s.profiles[ch.config.profile]
    ch.run.baseline = some b → ch.window.lastMean = some m →
    ∃ b', s.driftStep c =
        s.setChan c { ch with run := { ch.run with baseline := some b', quiet := some (p.driftInterval * 100) } } ∧
      (b ≤ m → b' = b + min p.driftStep (m - b)) ∧ (m ≤ b → b' = b - min p.driftStep (b - m)) ∧
      min b m ≤ b' ∧ b' ≤ max b m

/-- QUIET_TIMER_EXPIRY and MAX_ACTIVE_EXPIRY take effect on a timer that has run out (assumption 3): a drift step (R97), and
the end of an engagement that lasted too long, in SETTLING with cause STUCK, its window abandoned and counted (R57, R67,
R79). Otherwise they change nothing (the model's choice, assumption 2). -/
def Obligations.ChannelTimerExpiries : Prop :=
  ∀ (s : State) (c : ChanNo), s.power = .running →
    let ch := s.chan c
    (ch.run.quiet = some 0 → exec (.quietTimerExpiry c) s = .next (s.driftStep c)) ∧
    (ch.run.quiet ≠ some 0 → exec (.quietTimerExpiry c) s = .next s) ∧
    (ch.run.engaged = true → ch.run.maxActive = some 0 →
      ∃ t, exec (.maxActiveExpiry c) s = .next t ∧ t.sameRecords (s.stuckExpiry c) ∧
        t.chan c = { ch with
          window := { ch.window with openWin := none, lastMean := none, lastRate := 0 }
          run := { ch.run with state := .settling, engaged := false, confirm := 0, rejectRun := 0, baseline := none,
                               cause := .stuck, maxActive := none, quiet := none } } ∧
        t.alert.causes.stuck = true ∧ t.counters.windows[c] = s.abandonCounts c ∧
        (∀ d ≠ c, t.chan d = s.chan d ∧ t.counters.windows[d] = s.counters.windows[d]) ∧
        t.power = s.power ∧ t.time = s.time ∧ t.inlet = s.inlet ∧ t.groups = s.groups ∧ t.profiles = s.profiles ∧
        t.link = s.link ∧ t.mgmt = s.mgmt ∧ t.pending = s.pending) ∧
    (ch.run.engaged = false ∨ ch.run.maxActive ≠ some 0 → exec (.maxActiveExpiry c) s = .next s)

/-! ### Event Unit -/

/-- Case 1 of R109: a VALUE whose channel has one in the Event Queue gives that one its value, tier and time. Its place, its
channel and its loss field stay, the queue's length is unchanged, and nothing else changes: no loss is counted, and LOSS is
not reported (R110). -/
def Obligations.QueuedValueCoalesces : Prop :=
  ∀ (s : State) (c : ChanNo) (v : Nat) (tier : Tier) (time : Tick) (old : Record) (before after : List Record),
    s.events.queue = before ++ old :: after → old.isValueOf c = true →
    (∀ r ∈ before ++ after, r.isValueOf c = false) →
    s.enterRecord { kind := .value v tier, channel := c, time := time, loss := 0 } =
      { s with events := { s.events with
        queue := before ++ { kind := .value v tier, channel := c, time := time, loss := old.loss } :: after } }

/-- Case 2 of R109: a VALUE whose channel has one in its Held list, and none in the queue, gives that one its value, tier and
time, whether or not the list is full; its place stays, and nothing else changes. A VALUE that finds a full Held list
holding no VALUE is discarded, counted and reported as LOSS (R111, R113). -/
def Obligations.HeldValueCoalesces : Prop :=
  ∀ (s : State) (c : ChanNo) (v : Nat) (tier : Tier) (time : Tick),
    (∀ r ∈ s.events.queue, r.isValueOf c = false) →
    let new : Record := { kind := .value v tier, channel := c, time := time, loss := 0 }
    (∀ (old : Record) (before after : List Record),
      (s.events.del c).held = before ++ old :: after → old.isValueOf c = true →
      (∀ r ∈ before ++ after, r.isValueOf c = false) →
      s.enterRecord new = { s with events := s.events.setDel c { s.events.del c with
        held := before ++ { kind := .value v tier, channel := c, time := time, loss := old.loss } :: after } }) ∧
    ((s.events.del c).held.length = 3 → (∀ r ∈ (s.events.del c).held, r.isValueOf c = false) →
      (s.events.del c).inFlight = false →
      s.enterRecord new = { s with
        events := s.events.setDel c { s.events.del c with pendingLoss := min ((s.events.del c).pendingLoss + 1) 15 }
        counters := s.counters.raiseBy .heldDiscards 1
        alert := s.alert.report .loss })

/-- Case 3 of R109: a VALUE whose channel has its last one in flight, and none in queue or Held list, becomes the staged
value in place of any staged before; queue, Held list, Deferred list and all else stay, and no loss is counted (R112). -/
def Obligations.ValueInFlightStages : Prop :=
  ∀ (s : State) (c : ChanNo) (v : Nat) (tier : Tier) (time : Tick),
    (∀ r ∈ s.events.queue, r.isValueOf c = false) → (∀ r ∈ (s.events.del c).held, r.isValueOf c = false) →
    (s.events.del c).inFlight = true →
    s.enterRecord { kind := .value v tier, channel := c, time := time, loss := 0 } =
      { s with events := s.events.setDel c { s.events.del c with
        staged := some { value := v, tier := tier, time := time } } }

/-- Cases 4 to 6 of R109 for a record that none of cases 1 to 3 takes, be it no VALUE or a VALUE whose channel has none in
queue or Held list and none in flight: appended to a Held list of 1 or 2; discarded at one of 3, counted and
reported as LOSS; placed at the queue's tail with the pending loss while the queue holds fewer than 96; held first of its
channel otherwise, the channel joining the Deferred list's tail (R113, R114). -/
def Obligations.RecordEntersQueueOrHeldList : Prop :=
  ∀ (s : State) (r : Record), s.events.passes r →
    let d := s.events.del r.channel
    (d.held ≠ [] → d.held.length < 3 →
      s.enterRecord r = { s with events := s.events.setDel r.channel { d with held := d.held ++ [r] } }) ∧
    (3 ≤ d.held.length →
      s.enterRecord r =
        { s with
          events := s.events.setDel r.channel { d with pendingLoss := min (d.pendingLoss + 1) 15 }
          counters := s.counters.raiseBy .heldDiscards 1
          alert := s.alert.report .loss }) ∧
    (d.held = [] → s.events.queue.length < 96 →
      s.enterRecord r = { s with events :=
        { queue := s.events.queue ++ [{ r with loss := d.pendingLoss }]
          deferred := s.events.deferred
          delivery := s.events.delivery.set r.channel { d with pendingLoss := 0 } } }) ∧
    (d.held = [] → 96 ≤ s.events.queue.length →
      s.enterRecord r = { s with events :=
        { queue := s.events.queue
          deferred := s.events.deferred ++ [r.channel]
          delivery := s.events.delivery.set r.channel { d with held := [r] } } })

/-- A record handed over is counted as created, reported at once when its kind is urgent and not otherwise, stamped with the
tick and entered (R102, R104, R109); LOSS is reported after it, and the discard counted, exactly when the record is
discarded at its full Held list (R113). Nothing else changes. A reported cause joins the cause set, and the line goes by the
mode: asserted with the hold timer started in PULSE, asserted in LATCH, left in OFF (R178). The loss field before the queue
is assumption 21. -/
def Obligations.RecordsCountedAndCausesReported : Prop :=
  (∀ (s : State) (c : ChanNo) (k : RecordKind),
    let r : Record := { kind := k, channel := c, time := s.time, loss := 0 }
    let counted := s.counters.raiseBy .recordsCreated 1
    let reported : Alert := match k with
      | .stuck _ => s.alert.report .stuck
      | .noisy _ => s.alert.report .noisy
      | .silent => s.alert.report .silent
      | .gap _ => s.alert.report .gap
      | .onset _ _ | .release _ _ | .value _ _ | .clear _ | .resumed | .rebase _ _ => s.alert
    (¬ s.events.discards r →
      s.hand c k = { s with events := s.events.enter r, counters := counted, alert := reported }) ∧
    (s.events.discards r →
      s.hand c k = { s with
        events := s.events.enter r, counters := counted.raiseBy .heldDiscards 1, alert := reported.report .loss }) ∧
    s.events.enter r = s.handed c [k] ∧ s.handAll c [k] = s.hand c k) ∧
  (∀ (s : State) (c : ChanNo) (kinds : List RecordKind), (s.handAll c kinds).events = s.handed c kinds) ∧
  (∀ (a : Alert) (x y : Cause),
    ((a.report x).causes.has y = (a.causes.has y || decide (y = x))) ∧ (a.report x).mode = a.mode ∧
    (a.report x).hold = a.hold ∧
    (a.mode = .pulse → (a.report x).line = true ∧ (a.report x).holdTimer = some a.hold) ∧
    (a.mode = .latch → (a.report x).line = true ∧ (a.report x).holdTimer = a.holdTimer) ∧
    (a.mode = .off → (a.report x).line = a.line ∧ (a.report x).holdTimer = a.holdTimer))

/-- A take: the records taken, at most 8, are gone from the queue's head, the value-in-flight flags of the VALUE records
among them are set, and as many freed slots are then served, one at a time (R117, R118). While no channel waits, nothing
else changes. A freed slot is served: the head channel of the Deferred list gives up its oldest held record, which joins the
queue's tail with the channel's pending loss; the channel leaves the list when it holds nothing more, and goes to the tail
otherwise (R114, R118). -/
def Obligations.TakeFlagsAndServes : Prop :=
  (∀ e : Events, e.deferred = [] →
    e.take.queue = e.queue.drop 8 ∧ e.take.deferred = [] ∧
    ∀ c, e.take.del c = { e.del c with inFlight := (e.del c).inFlight || (e.queue.take 8).any (Record.isValueOf c) }) ∧
  (∀ e : Events, ∃ u : Events,
    u.queue = e.queue.drop 8 ∧ u.deferred = e.deferred ∧
    (∀ c, u.del c = { e.del c with inFlight := (e.del c).inFlight || (e.queue.take 8).any (Record.isValueOf c) }) ∧
    e.take = (List.replicate (min 8 e.queue.length) ()).foldl (fun v _ => v.serveSlot) u) ∧
  (∀ e : Events, e.deferred = [] → e.serveSlot = e) ∧
  (∀ (e : Events) (c : ChanNo) (waiting : List ChanNo) (r : Record) (rest : List Record),
    e.deferred = c :: waiting → (e.del c).held = r :: rest → r.channel = c →
    e.serveSlot.queue = e.queue ++ [{ r with loss := (e.del c).pendingLoss }] ∧
    e.serveSlot.deferred = (if rest = [] then waiting else waiting ++ [c]) ∧
    e.serveSlot.del c = { e.del c with held := rest, pendingLoss := 0 } ∧
    ∀ d ≠ c, e.serveSlot.del d = e.del d)

/-- An acknowledged VALUE record clears its channel's flag and turns a staged value into a record that enters, with the
staged value, tier and time, and that is not counted as created; at a full Held list it is discarded, counted and reported as
LOSS (R113). A record of another kind changes nothing (R102, R120). Of removed frames the Event Unit is told oldest first,
and takes the records of each in the frame's order (R120). -/
def Obligations.DeliveredValueReleasesStaged : Prop :=
  (∀ (s : State) (r : Record),
    let d := s.events.del r.channel
    let cleared := s.events.setDel r.channel { d with inFlight := false, staged := none }
    (r.isValue = false → s.recordDelivered r = s) ∧
    (r.isValue = true → d.staged = none →
      s.recordDelivered r = { s with events := cleared }) ∧
    (∀ v, r.isValue = true → d.staged = some v →
      let new : Record := { kind := .value v.value v.tier, channel := r.channel, time := v.time, loss := 0 }
      (¬ cleared.discards new → s.recordDelivered r = { s with events := cleared.enter new }) ∧
      (cleared.discards new → s.recordDelivered r = { s with
        events := cleared.enter new, counters := s.counters.raiseBy .heldDiscards 1, alert := s.alert.report .loss }))) ∧
  (∀ s : State, s.framesDelivered [] = s ∧
    ∀ (oldest : EventFrame) (newer : List EventFrame),
      s.framesDelivered (oldest :: newer) = (oldest.records.foldl State.recordDelivered s).framesDelivered newer)

/-! ### Outlet link -/

/-- ACK_FRAME in DOWN brings the link UP with its grant, sequence numbers from 0, and the announce cycle ended, whatever its
acknowledge number and resend flag (R128, R129, R132, R133). In STALLED, whatever it names, the link is UP with round count
0; the frames it names are removed, the grant is added, and a recovery round of what remains begins with the ack timer at 20
ms (R132, R136, R137, R144); the Event Unit is told of the removed ones as DeliveredValueReleasesStaged says. -/
def Obligations.AckInDownAndStalled : Prop :=
  (∀ (s : State) (f : RawFrame) (a : AckFields), s.power = .running → s.link.state = .down →
    checkInbound f = .ack a →
    exec (.ackFrame f) s = .next { s with link := { s.link with
      state := .up, credits := min (s.link.credits + a.grant) 31, nextSeq := 0, roundCount := 0,
      announceTimer := none, announceDue := false, reception := .hunting } }) ∧
  (∀ (s : State) (f : RawFrame) (a : AckFields) (removed remaining : List EventFrame),
    s.power = .running → s.link.state = .stalled → checkInbound f = .ack a →
    s.link.replay = removed ++ remaining →
    (removed = [] ∧ (∀ x ∈ remaining, x.seq ≠ a.ack)) ∨
      (∃ older named, removed = older ++ [named] ∧ named.seq = a.ack ∧ ∀ x ∈ older, x.seq ≠ a.ack) →
    exec (.ackFrame f) s = .next { s.framesDelivered removed with link := { s.link with
      state := .up, replay := remaining, roundCount := 0, credits := min (s.link.credits + a.grant) 31
      roundLeft := remaining.length
      ackTimer := if remaining = [] then none else some 20
      reception := .hunting } })

/-- ACK_FRAME in UP. When its number names a buffered frame, that frame and every older one are removed, and the Event Unit
is told of each, oldest first, as DeliveredValueReleasesStaged says; the round count is 0, the ack timer restarts or stops.
When it names none, nothing is removed and round count and timer stay. The grant is added, and the resend flag begins a
round of what remains (R132, R136–R139). -/
def Obligations.AckInUp : Prop :=
  (∀ (s : State) (f : RawFrame) (a : AckFields) (older : List EventFrame) (named : EventFrame) (newer : List EventFrame),
    s.power = .running → s.link.state = .up → checkInbound f = .ack a →
    s.link.replay = older ++ named :: newer → named.seq = a.ack → (∀ x ∈ older, x.seq ≠ a.ack) →
    exec (.ackFrame f) s = .next { s.framesDelivered (older ++ [named]) with link := { s.link with
      replay := newer, roundCount := 0, credits := min (s.link.credits + a.grant) 31
      roundLeft := if a.resend then newer.length else min s.link.roundLeft newer.length
      ackTimer := if newer = [] then none else some 20
      reception := .hunting } }) ∧
  (∀ (s : State) (f : RawFrame) (a : AckFields),
    s.power = .running → s.link.state = .up → checkInbound f = .ack a → (∀ x ∈ s.link.replay, x.seq ≠ a.ack) →
    s.link.roundLeft ≤ s.link.replay.length →
    exec (.ackFrame f) s = .next { s with link := { s.link with
      credits := min (s.link.credits + a.grant) 31
      roundLeft := if a.resend = true ∧ s.link.replay ≠ [] then s.link.replay.length else s.link.roundLeft
      ackTimer := if a.resend = true ∧ s.link.replay ≠ [] then some 20 else s.link.ackTimer
      reception := .hunting } })

/-- ACK_TIMER_EXPIRY in UP: with the round count below 3 it rises, a round of all buffered frames begins, and the timer
restarts with 20 ms; with the round count at 3 the link stalls: the round and the timer end, the Mirror Buffer is emptied
and counted, the stall is counted and reported, and buffer, credits and numbers are kept (R139–R141, R143).
ANNOUNCE_TIMER_EXPIRY in DOWN makes an Announce Frame due and restarts the timer with 50 ms (R128). HOLD_TIMER_EXPIRY
deasserts the line, stops the timer and keeps the cause set (R179). The form of a due expiry is assumption 3. -/
def Obligations.LinkAndHoldTimerExpiries : Prop :=
  (∀ s : State, s.power = .running → s.link.state = .up → s.link.ackTimer = some 0 →
    (s.link.roundCount < 3 →
      exec .ackTimerExpiry s = .next { s with link := { s.link with
        roundCount := s.link.roundCount + 1, roundLeft := s.link.replay.length, ackTimer := some 20 } }) ∧
    (s.link.roundCount = 3 →
      exec .ackTimerExpiry s =
        .next { s with
          link := { s.link with state := .stalled, roundLeft := 0, ackTimer := none, mirror := [] }
          counters := (s.counters.raiseBy .mirrorDiscards s.link.mirror.length).raiseBy .stallEntries 1
          alert := s.alert.report .stall })) ∧
  (∀ s : State, s.power = .running →
    (s.link.state = .down → s.link.announceTimer = some 0 →
      exec .announceTimerExpiry s =
        .next { s with link := { s.link with announceDue := true, announceTimer := some 50 } }) ∧
    (s.alert.holdTimer = some 0 →
      exec .holdTimerExpiry s = .next { s with alert := { s.alert with line := false, holdTimer := none } }))

/-- TRANSMISSION_COMPLETE frees the lane (R130); when the frame was the response of a RESYNC, the link enters DOWN with
cause RESYNC and the tag in the same event, and the copies in the Mirror Buffer are counted (R127, R148). -/
def Obligations.TransmissionCompleteFreesLane : Prop :=
  ∀ s : State, s.power = .running → s.link.lane ≠ none →
    (s.link.laneResync = none →
      exec .transmissionComplete s = .next { s with link := { s.link with lane := none } }) ∧
    (∀ tag, s.link.laneResync = some tag →
      exec .transmissionComplete s =
        .next { s with
          link := { s.link with
            lane := none, laneResync := none, state := .down, resetCause := .resync tag, credits := 0, roundCount := 0,
            roundLeft := 0, ackTimer := none, mirror := [], announceDue := true, announceTimer := some 50 }
          counters := s.counters.raiseBy .mirrorDiscards s.link.mirror.length })

/-- The frames that wait are sent by the arbiter's order (R131), each as the bytes of its format (R187–R190).
RESPONSE_FRAME_SEND: the head response leaves the queue as its transmission begins, and that of a RESYNC carried out will
bring the link DOWN when it completes (R148, R167). With no response waiting: ANNOUNCE_FRAME_SEND carries the reset cause
and the tick, and the frame ceases to be due (R128); RETRANSMITTED_FRAME sends the oldest buffered frame that the round has
not resent, as it lies, and counts it (R140); MIRROR_FRAME_SEND takes the head copy and counts it (R145). A send row changes
nothing while the lane is busy (R130), while a frame of a higher class is present (R131), or while its own frame is absent
(the model's choice, assumption 2; each grant as a row of its own is assumption 4). OUTLET_TX carries the bytes of the frame
in transmission, or idle fill, each most significant bit first, and a receiver of such bits reads the same bytes (R186); the
CRC is the one that R187 computes byte by byte. -/
def Obligations.WaitingFramesSent : Prop :=
  (∀ (s : State) (r : Response) (rest : List Response),
    s.power = .running → s.link.lane = none → s.mgmt.responses = r :: rest →
    exec .responseFrameSend s =
      .next { s with
        mgmt := { s.mgmt with responses := rest }
        link := { s.link with
          lane := some (.response r)
          laneResync := if r.command = 0x40 ∧ r.status = .ok ∧ r.replayed = false then some r.tag else none } }) ∧
  (∀ s : State, s.power = .running → s.link.lane = none → s.mgmt.responses = [] →
    (s.link.state = .down → s.link.announceDue = true →
      exec .announceFrameSend s = .next { s with link := { s.link with
        announceDue := false, lane := some (.announce s.link.resetCause s.time) } }) ∧
    (∀ (resent : List EventFrame) (f : EventFrame) (later : List EventFrame),
      s.link.state = .up → s.link.replay = resent ++ f :: later → s.link.roundLeft = later.length + 1 →
      exec .retransmittedFrame s =
        .next { s with
          link := { s.link with roundLeft := later.length, lane := some (.event f) }
          counters := s.counters.raiseBy .retransmitted 1 }) ∧
    (∀ (m : SampleFrame) (rest : List SampleFrame),
      s.link.state = .up → s.link.roundLeft = 0 →
      s.link.credits = 0 ∨ 4 ≤ s.link.replay.length ∨ s.events.queue = [] → s.link.mirror = m :: rest →
      exec .mirrorFrameSend s =
        .next { s with
          link := { s.link with mirror := rest, lane := some (.mirror m) }
          counters := s.counters.raiseBy .mirrorSent 1 })) ∧
  (∀ s : State,
    let rows : List Instr := [.responseFrameSend, .announceFrameSend, .retransmittedFrame, .newEventFrame, .mirrorFrameSend]
    (s.link.lane ≠ none → ∀ i ∈ rows, exec i s = .next s) ∧
    (s.mgmt.responses ≠ [] → ∀ i ∈ rows.drop 1, exec i s = .next s) ∧
    (s.link.state = .down → s.link.announceDue = true → ∀ i ∈ rows.drop 2, exec i s = .next s) ∧
    (0 < s.link.roundLeft → ∀ i ∈ rows.drop 3, exec i s = .next s) ∧
    (s.link.state = .up → 1 ≤ s.link.credits → s.link.replay.length < 4 → s.events.queue ≠ [] →
      exec .mirrorFrameSend s = .next s) ∧
    (s.mgmt.responses = [] → exec .responseFrameSend s = .next s) ∧
    (s.link.state ≠ .down ∨ s.link.announceDue = false → exec .announceFrameSend s = .next s) ∧
    (s.link.roundLeft = 0 → exec .retransmittedFrame s = .next s) ∧
    (s.link.state ≠ .up ∨ s.link.mirror = [] → exec .mirrorFrameSend s = .next s)) ∧
  (∀ s : State,
    (s.link.lane = none → s.outletTx = [0x00]) ∧
    (∀ r, s.link.lane = some (.response r) → s.outletTx = responseBytes r) ∧
    (∀ cause tick, s.link.lane = some (.announce cause tick) → s.outletTx = announceBytes cause tick) ∧
    (∀ f, s.link.lane = some (.event f) → s.outletTx = eventBytes f) ∧
    (∀ m, s.link.lane = some (.mirror m) → s.outletTx = mirrorBytes m) ∧
    s.outletBits = (s.outletTx.flatMap fun b => (List.range 8).map fun i => b.getLsbD (7 - i)) ∧
    bytesOfLine s.outletBits = s.outletTx) ∧
  (let shift (r : BitVec 16) : BitVec 16 := if r.msb then (r <<< 1) ^^^ 0x1021 else r <<< 1
   crc16 [] = 0xFFFF ∧
   ∀ (bytes : List Byte) (b : Byte),
     crc16 (bytes ++ [b]) = Nat.repeat shift 8 (crc16 bytes ^^^ (b ++ (0 : Byte))))

/-- NEW_EVENT_FRAME, granted the lane: the oldest records, at most 8, leave the queue into a frame with the next sequence
number; one credit is consumed; the frame joins the Replay Buffer, and its transmission begins, OUTLET_TX carrying the bytes
that R187 and R189 give it (R131–R134, R139). With the
credit count at 0, no command puts a frame into the Replay Buffer or raises the count of frames sent first time (R132).
Without a grant the row changes nothing: the lane busy, a frame of a higher class present, the link not UP, no credit, the
Replay Buffer full, or the queue empty (R130, R131; assumption 2). -/
def Obligations.NewEventFrameBuiltAgainstCredit : Prop :=
  (∀ s : State, s.power = .running → s.link.lane = none → s.mgmt.responses = [] → s.link.state = .up →
    s.link.roundLeft = 0 → 1 ≤ s.link.credits → s.link.replay.length < 4 → s.events.queue ≠ [] →
    let frame : EventFrame := { seq := s.link.nextSeq, records := s.events.queue.take 8 }
    ∃ t, exec .newEventFrame s = .next t ∧ t.outletTx = eventBytes frame ∧
      t = { s with
        events := s.events.take
        link := { s.link with
          nextSeq := s.link.nextSeq + 1, credits := s.link.credits - 1, replay := s.link.replay ++ [frame]
          ackTimer := if s.link.replay = [] then some 20 else s.link.ackTimer
          lane := some (.event frame) }
        counters := s.counters.raiseBy .framesSent 1 }) ∧
  (∀ (s t : State) (i : Instr), s.link.credits = 0 → exec i s = .next t →
    t.link.replay.length ≤ s.link.replay.length ∧
    (t.counters.get .framesSent).toNat ≤ (s.counters.get .framesSent).toNat) ∧
  (∀ s : State,
    s.link.lane ≠ none ∨ s.mgmt.responses ≠ [] ∨ s.link.state ≠ .up ∨ 0 < s.link.roundLeft ∨ s.link.credits = 0 ∨
      4 ≤ s.link.replay.length ∨ s.events.queue = [] →
    exec .newEventFrame s = .next s)

/-! ### Management -/

/-- REQUEST_FRAME that brings a RESTART without parameters: every block returns to its start, the loaded configuration, the
route banks, the profiles, the member counts, and the alert's mode and hold are kept, and the link is DOWN with cause
RESTART and the tag; a frame in transmission is left to complete. A swap that still waits for its frame is not made; one
whose frame's handling is complete leaves the banks exchanged (R37, R175; the due swap is assumption 6) (R41, R62, R89,
R101, R125, R150, R155, R172–R174). -/
def Obligations.RestartKeepsConfiguration : Prop :=
  ∀ (s : State) (f : RawFrame) (tag : Byte), s.power = .running → checkInbound f = .request tag 0x41 [] →
    ∃ t, exec (.requestFrame f) s = .next t ∧
      t.power = s.power ∧ t.time = 0 ∧ t.profiles = s.profiles ∧ t.pending = s.pending ∧
      t.inlet.reception = .hunting ∧ t.inlet.swap = .none ∧
      (let active := s.inlet.active.map (·.route)
       t.inlet.shadow = (if s.inlet.swap = .due then active else s.inlet.shadow) ∧
       t.inlet.active = ((if s.inlet.swap = .due then s.inlet.shadow else active).map fun r =>
         { route := r, track := { synced := false, expected := 0, timer := none, silent := false } })) ∧
      (∀ c, t.chan c =
        { config := (s.chan c).config
          window := { openWin := none, tier := 0, lastRate := 0, lastMean := none }
          run := { state := if (s.chan c).config.mode = .off then .off else .settling, engaged := false, confirm := 0,
                   rejectRun := 0, baseline := none, cause := .settle, maxActive := none, quiet := none,
                   lastValue := none } }) ∧
      (∀ g : Fin 8, t.groups[g] = { tier := 0, members := s.groups[g].members }) ∧
      t.events.queue = [] ∧ t.events.deferred = [] ∧
      (∀ c, t.events.del c = { held := [], pendingLoss := 0, inFlight := false, staged := none }) ∧
      t.link.state = .down ∧ t.link.resetCause = .restart tag ∧ t.link.credits = 0 ∧ t.link.replay = [] ∧
      t.link.roundCount = 0 ∧ t.link.roundLeft = 0 ∧ t.link.ackTimer = none ∧ t.link.mirror = [] ∧
      t.link.announceDue = true ∧ t.link.announceTimer = some 50 ∧ t.link.reception = .hunting ∧
      t.link.lane = s.link.lane ∧
      t.mgmt = { requests := [], responses := [], cache := [] } ∧
      t.alert.mode = s.alert.mode ∧ t.alert.hold = s.alert.hold ∧ t.alert.line = false ∧ t.alert.holdTimer = none ∧
      (∀ x, t.alert.causes.has x = false) ∧ (∀ k, t.counters.get k = 0) ∧
      (∀ c : ChanNo, t.counters.windows[c] = { accepted := 0, rejected := 0, abandoned := 0 })

/-- REQUEST_FRAME, any request but a RESTART without parameters. TAG_IN_USE, a replay from the cache, or BUSY joins the
Response Queue, with its counter, when there is a place neither taken nor reserved; otherwise the request is discarded
unanswered and counted. A request that no check turns away joins the Request Queue's tail. A cache entry of the same tag and
another command is removed. Nothing else changes (R155–R160). -/
def Obligations.RequestArrival : Prop :=
  (∀ (s : State) (f : RawFrame) (tag command : Byte) (params : List Byte),
    s.power = .running → checkInbound f = .request tag command params → (command = 0x41 → params ≠ []) →
    (∀ q ∈ s.mgmt.requests, q.tag ≠ tag) → (∀ e ∈ s.mgmt.cache, e.tag = tag → e.command ≠ command) →
    s.mgmt.requests.length < 4 →
    exec (.requestFrame f) s =
      .next { s with
        link := { s.link with reception := .hunting }
        mgmt := { s.mgmt with
          requests := s.mgmt.requests ++ [{ tag := tag, command := command, params := params }]
          cache := s.mgmt.cache.filter fun e => e.tag ≠ tag } }) ∧
  (∀ (s : State) (f : RawFrame) (tag command : Byte) (params : List Byte),
    s.power = .running → checkInbound f = .request tag command params → (command = 0x41 → params ≠ []) →
    let full := 4 ≤ s.mgmt.responses.length + (if s.inlet.swap = .none then 0 else 1)
    let t : State := { s with link := { s.link with reception := .hunting } }
    let answer (x : Status) : Response := { tag := tag, command := command, status := x, replayed := false, data := [] }
    ((∃ q ∈ s.mgmt.requests, q.tag = tag) →
      (¬ full → exec (.requestFrame f) s =
        .next { t with mgmt := { s.mgmt with responses := s.mgmt.responses ++ [answer .tagInUse] } }) ∧
      (full → exec (.requestFrame f) s = .next (t.raise .discardedUnanswered))) ∧
    (∀ (e : CacheEntry) (older newer : List CacheEntry), (∀ q ∈ s.mgmt.requests, q.tag ≠ tag) →
      s.mgmt.cache = older ++ e :: newer → e.tag = tag → e.command = command → (∀ x ∈ older, x.tag ≠ tag) →
      (¬ full → exec (.requestFrame f) s =
        .next { t with
          mgmt := { s.mgmt with responses := s.mgmt.responses ++
            [{ tag := tag, command := command, status := e.status, replayed := true, data := e.data }] }
          counters := s.counters.raiseBy .cacheReplays 1 }) ∧
      (full → exec (.requestFrame f) s = .next (t.raise .discardedUnanswered))) ∧
    ((∀ q ∈ s.mgmt.requests, q.tag ≠ tag) → (∀ e ∈ s.mgmt.cache, e.tag = tag → e.command ≠ command) →
      4 ≤ s.mgmt.requests.length →
      let u : State := { t with mgmt := { s.mgmt with cache := s.mgmt.cache.filter fun e => e.tag ≠ tag } }
      (¬ full → exec (.requestFrame f) s =
        .next { u with
          mgmt := { u.mgmt with responses := s.mgmt.responses ++ [answer .busy] }
          counters := s.counters.raiseBy .refusedBusy 1 }) ∧
      (full → exec (.requestFrame f) s = .next (u.raise .discardedUnanswered))))

/-- Every execution row answers BAD_LENGTH to a parameter block that does not have the command's length; UNKNOWN_COMMAND
answers BAD_COMMAND whatever the block, RESTART_WITH_PARAMETERS answers BAD_LENGTH; each is cached, and nothing but the
Management Unit's queues and cache changes (R153, R155, R162, R163; execution at the row's own command is assumption 5). -/
def Obligations.BadLengthAndUnknownAnswers : Prop :=
  ∀ (s : State) (q : Request) (rest : List Request), s.ready q rest →
    (∀ i code length, executionRow i = some (code, length) → q.command = code → q.params.length ≠ length →
      exec i s = .next (s.answered q rest .badLength [])) ∧
    ((∀ i code length, executionRow i = some (code, length) → q.command ≠ code) → q.command ≠ 0x41 →
      exec .unknownCommand s = .next (s.answered q rest .badCommand [])) ∧
    (q.command = 0x41 → exec .restartWithParameters s = .next (s.answered q rest .badLength []))

/-- A request answered with any status other than OK leaves every table, queue, list and channel as it was, the Management
Unit's own queues and cache apart, and carries no data (R152, R153, R163). While a SWAP_ROUTES waits, or with no free place
in the Response Queue, no execution row does anything (R37, R161, R164). -/
def Obligations.RefusedRequestChangesNothing : Prop :=
  (∀ (s t : State) (q : Request) (rest : List Request) (i : Instr) (x : Status) (data : List Byte),
    (executionRow i).isSome ∨ i = .unknownCommand ∨ i = .restartWithParameters →
    s.ready q rest → exec i s = .next t → t.mgmt = s.mgmt.answered q rest x data → x ≠ .ok →
    t = s.answered q rest x []) ∧
  (∀ (s : State) (i : Instr), (executionRow i).isSome ∨ i = .unknownCommand ∨ i = .restartWithParameters →
    s.inlet.swap ≠ .none ∨ 4 ≤ s.mgmt.responses.length → exec i s = .next s)

/-- The requests that read answer OK with the data of R191 and R192, byte by byte, and change nothing: DESCRIBE (R168),
GET_PROFILE (R15), GET_CHANNEL (R18), GET_ROUTES of the entries in the bank's order (R40; by source, assumption 12),
READ_COUNTERS in the order of R182 (R184). A profile number outside 0–15, an unknown bank selector or set kind, and a channel
outside 0–63 in a CHANNEL set are answered BAD_VALUE (R15, R40, R184, R191); the channel of GET_CHANNEL is with
RebaseAndChannelRefusals. Execution at the row's own command is assumption 5. -/
def Obligations.ReadRequestsAnswered : Prop :=
  ∀ (s : State) (q : Request) (rest : List Request), s.ready q rest →
    (q.command = 0x01 → q.params = [] → exec .describe s = .next (s.answered q rest .ok
      ([0x63, 0x0A, 1, 64, 16, 8, 24, 96] ++
       (match s.link.resetCause with
        | .power => [1, 0]
        | .pin => [2, 0]
        | .restart tag => [3, tag]
        | .resync tag => [4, tag]) ++
       [s.time.extractLsb' 16 8, s.time.extractLsb' 8 8, s.time.extractLsb' 0 8]))) ∧
    (∀ (b : Byte) (n : Fin 16), q.command = 0x11 → q.params = [b] → b.toNat = n.val →
      exec .getProfile s = .next (s.answered q rest .ok (profileBytes n s.profiles[n]))) ∧
    (∀ b : Byte, q.command = 0x11 → q.params = [b] → 16 ≤ b.toNat →
      exec .getProfile s = .next (s.answered q rest .badValue [])) ∧
    (∀ (b : Byte) (c : ChanNo), q.command = 0x13 → q.params = [b] → b.toNat = c.val →
      exec .getChannel s = .next (s.answered q rest .ok (s.channelBytes c))) ∧
    (q.command = 0x24 → q.params = [0] → exec .getRoutes s = .next (s.answered q rest .ok
      (BitVec.ofNat 8 s.inlet.active.length :: s.inlet.active.flatMap fun a => routeBytes a.route (some a.track)))) ∧
    (q.command = 0x24 → q.params = [1] → exec .getRoutes s = .next (s.answered q rest .ok
      (BitVec.ofNat 8 s.inlet.shadow.length :: s.inlet.shadow.flatMap fun r => routeBytes r none))) ∧
    (∀ b : Byte, q.command = 0x24 → q.params = [b] → 2 ≤ b.toNat →
      exec .getRoutes s = .next (s.answered q rest .badValue [])) ∧
    (∀ b : Byte, q.command = 0x32 → q.params = [0, b] →
      exec .readCounters s = .next (s.answered q rest .ok
        (tableOrder.flatMap fun k => twoBytes (s.counters.get k).toNat))) ∧
    (∀ (b : Byte) (c : ChanNo), q.command = 0x32 → q.params = [1, b] → b.toNat = c.val →
      exec .readCounters s = .next (s.answered q rest .ok (s.windowBytes c))) ∧
    (∀ kind b : Byte, q.command = 0x32 → q.params = [kind, b] → 2 ≤ kind.toNat ∨ kind = 1 ∧ 64 ≤ b.toNat →
      exec .readCounters s = .next (s.answered q rest .badValue []))

/-- SET_PROFILE with a block of the right length: every field of the named profile is replaced when the block passes the
checks of R13, and otherwise BAD_VALUE is answered and nothing else changes. A block passes exactly when it is the block, by
the table of R191, of a profile number 0–15 and of fields in the ranges of R13 and in the order of R8; those ranges are the
ones the model calls valid. GET_PROFILE's data is the block that wrote the profile (R15). Execution at the row's own command
is assumption 5. -/
def Obligations.SetProfileReplacesOrRefuses : Prop :=
  let inRanges (p : Profile) : Prop :=
    (∀ l ∈ p.lengths.toList, 1 ≤ l ∧ l ≤ 64) ∧
    p.b1 ≤ p.b2 ∧ p.b2 ≤ p.b3 ∧ p.b3 ≤ p.b4 ∧ p.b4 ≤ 4095 ∧ p.spreadLimit ≤ 4095 ∧
    1 ≤ p.rejectLimit ∧ p.rejectLimit ≤ 15 ∧ 1 ≤ p.onset ∧ p.onset ≤ 4095 ∧ p.release ≤ 4094 ∧ p.release < p.onset ∧
    1 ≤ p.confirm ∧ p.confirm ≤ 8 ∧ p.maxActive ≤ 255 ∧ 1 ≤ p.driftInterval ∧ p.driftInterval ≤ 255 ∧
    p.driftStep ≤ 63 ∧ p.reportDelta ≤ 4095
  (∀ (s : State) (q : Request) (rest : List Request), s.ready q rest → q.command = 0x10 → q.params.length = 28 →
    (∀ n p, parseProfile q.params = some (n, p) →
      exec .setProfile s = .next { s.answered q rest .ok [] with profiles := s.profiles.set n p }) ∧
    (parseProfile q.params = none → exec .setProfile s = .next (s.answered q rest .badValue []))) ∧
  (∀ (block : List Byte) (n : Fin 16) (p : Profile), block.length = 28 →
    (parseProfile block = some (n, p) ↔ inRanges p ∧ block = profileBytes n p)) ∧
  (∀ p : Profile, p.valid = true ↔ inRanges p) ∧
  (∀ (s : State) (q : Request) (rest : List Request) (b : Byte) (n : Fin 16), s.ready q rest → q.command = 0x11 →
    q.params = [b] → b.toNat = n.val →
    exec .getProfile s = .next (s.answered q rest .ok (profileBytes n s.profiles[n])))

/-- SET_CHANNEL, accepted (R12, R16, R85–R88, R191): every five bytes in the ranges of R16 are those of a channel and a
configuration, by the codes of R191 (any other five are refused, as RebaseAndChannelRefusals says). The four fields are
stored together, and window and state part go by the case of R16: kept in a quiet store and a plain change; mean forgotten
and rate 0 on an entry into SETTLING or OFF (R60, R67, R68), the open window abandoned and counted on a stop and a change of
polarity (R57). The Group Table changes as GroupChangeMovesMember says. A RELEASE is handed over with its counts and reports
(R102, R113), and no other alert or counter changes. No other channel, and no other block but the event path, the Alert Unit
and the Counter Bank as said, changes. -/
def Obligations.SetChannelCases : Prop :=
  (∀ b0 b1 b2 b3 b4 : Byte, b0.toNat < 64 → b1.toNat ≤ 2 → b2.toNat ≤ 15 → b3.toNat ≤ 8 → b4.toNat ≤ 1 →
    ∃ c new, [b0, b1, b2, b3, b4] = channelRequestBytes c new) ∧
  ∀ (s : State) (q : Request) (rest : List Request) (c : ChanNo) (new : ChannelConfig),
    s.ready q rest → q.command = 0x12 → q.params = channelRequestBytes c new →
    ∃ t, exec .setChannel s = .next t ∧ t.mgmt = s.mgmt.answered q rest .ok [] ∧
      (let ch := s.chan c
       let ch' := t.chan c
       ch'.config = new ∧
       let tier := match ch.config.group with
         | none => ch.window.tier
         | some g => if new.group = some g then ch.window.tier else s.groups[g].tier
       let counts := t.counters.windows[c]
       (ch.config.mode = .off → new.mode = .off →
         ch'.window = { ch.window with tier := tier } ∧ ch'.run = ch.run ∧ t.sameRecords s ∧
         counts = s.counters.windows[c]) ∧
       (ch.config.mode = .off → new.mode ≠ .off →
         ch'.window = { ch.window with tier := tier, lastRate := 0, lastMean := none } ∧
         ch'.run = { ch.run with state := .settling, engaged := false, confirm := 0, rejectRun := 0, baseline := none,
                                 cause := .settle, maxActive := none, quiet := none } ∧ t.sameRecords s ∧
         counts = s.counters.windows[c]) ∧
       (ch.config.mode ≠ .off → new.mode = .off →
         ch'.window = { openWin := none, tier := tier, lastRate := 0, lastMean := none } ∧
         ch'.run = { ch.run with state := .off, engaged := false, confirm := 0, rejectRun := 0, baseline := none,
                                 maxActive := none, quiet := none, lastValue := none } ∧
         t.sameRecords (s.handAll c (if ch.run.engaged then [.release .stopped none] else [])) ∧
         counts = s.abandonCounts c) ∧
       (ch.config.mode ≠ .off → new.mode ≠ .off → ch.config.polarity ≠ new.polarity →
         ch'.window = { openWin := none, tier := tier, lastRate := 0, lastMean := none } ∧
         ch'.run = { ch.run with state := .settling, engaged := false, confirm := 0, rejectRun := 0, baseline := none,
                                 cause := .settle, maxActive := none, quiet := none } ∧
         t.sameRecords (s.handAll c (if ch.run.engaged then [.release .rebase none] else [])) ∧
         counts = s.abandonCounts c) ∧
       (ch.config.mode ≠ .off → new.mode ≠ .off → ch.config.polarity = new.polarity →
         ch'.window = { ch.window with tier := tier } ∧ ch'.run = ch.run ∧ t.sameRecords s ∧
         counts = s.counters.windows[c])) ∧
      t.groups = (s.setConfig c new).groups ∧
      (∀ d ≠ c, t.counters.windows[d] = s.counters.windows[d]) ∧
      (∀ d ≠ c, t.chan d = s.chan d) ∧ t.power = s.power ∧ t.time = s.time ∧ t.inlet = s.inlet ∧
      t.profiles = s.profiles ∧ t.link = s.link ∧ t.pending = s.pending

/-- SET_CHANNEL that moves a channel between groups: the left group loses a member, and tier 0 takes the place of its tier
when it was the last; the joined group gains a member and keeps its tier; no other group changes, and the same group named
again changes none (R12). -/
def Obligations.GroupChangeMovesMember : Prop :=
  ∀ (s : State) (c : ChanNo) (new : ChannelConfig),
    let old := (s.chan c).config.group
    let t := s.setConfig c new
    ∀ g : Fin 8,
      t.groups[g] =
        if old = new.group then s.groups[g]
        else if old = some g then
          { members := s.groups[g].members - 1, tier := if s.groups[g].members - 1 = 0 then 0 else s.groups[g].tier }
        else if new.group = some g then { s.groups[g] with members := s.groups[g].members + 1 }
        else s.groups[g]

/-- REBASE and the refusals of SET_CHANNEL, GET_CHANNEL and REBASE: a running channel ends in SETTLING with cause FORCED,
its window abandoned and counted (R57, R67, R84); a channel in OFF is answered BAD_STATE, a parameter out of range BAD_VALUE
(R16, R18, R84). -/
def Obligations.RebaseAndChannelRefusals : Prop :=
  ∀ (s : State) (q : Request) (rest : List Request), s.ready q rest →
    (∀ (b : Byte) (c : ChanNo), q.command = 0x14 → q.params = [b] → b.toNat = c.val →
      ((s.chan c).config.mode = .off → exec .rebase s = .next (s.answered q rest .badState [])) ∧
      ((s.chan c).config.mode ≠ .off → ∃ t, exec .rebase s = .next t ∧
        t.mgmt = s.mgmt.answered q rest .ok [] ∧
        t.sameRecords (s.handAll c (if (s.chan c).run.engaged then [.release .rebase none] else [])) ∧
        t.chan c = { s.chan c with
          window := { (s.chan c).window with openWin := none, lastMean := none, lastRate := 0 }
          run := { (s.chan c).run with
            state := .settling, engaged := false, confirm := 0, rejectRun := 0, baseline := none, cause := .forced,
            maxActive := none, quiet := none } } ∧
        t.counters.windows[c] = s.abandonCounts c ∧
        (∀ d ≠ c, t.chan d = s.chan d ∧ t.counters.windows[d] = s.counters.windows[d]) ∧
        t.power = s.power ∧ t.time = s.time ∧ t.inlet = s.inlet ∧
        t.groups = s.groups ∧ t.profiles = s.profiles ∧ t.link = s.link ∧ t.pending = s.pending)) ∧
    (∀ b : Byte, q.params = [b] → 64 ≤ b.toNat →
      (q.command = 0x14 → exec .rebase s = .next (s.answered q rest .badValue [])) ∧
      (q.command = 0x13 → exec .getChannel s = .next (s.answered q rest .badValue []))) ∧
    (∀ b0 b1 b2 b3 b4 : Byte, q.command = 0x12 → q.params = [b0, b1, b2, b3, b4] →
      64 ≤ b0.toNat ∨ 3 ≤ b1.toNat ∨ 16 ≤ b2.toNat ∨ 9 ≤ b3.toNat ∨ 2 ≤ b4.toNat →
      exec .setChannel s = .next (s.answered q rest .badValue []))

/-- SET_ROUTE, DROP_ROUTE and COPY_ROUTES change the shadow bank alone: an entry, read from the six bytes as R191 gives, is
placed or replaced, refused for its values, for a shared channel or for a full bank; removed, or answered NOT_FOUND; or the
bank copies the active one (R34–R36). Execution at the row's own command is assumption 5. -/
def Obligations.RouteEdits : Prop :=
  ∀ (s : State) (q : Request) (rest : List Request), s.ready q rest →
    (∀ b0 b1 b2 b3 b4 b5 : Byte, q.command = 0x20 → q.params = [b0, b1, b2, b3, b4, b5] →
      (64 ≤ b1.toNat ∨ b2.toNat = 0 ∨ 16 < b2.toNat ∨ 64 < b1.toNat + b2.toNat ∨ 2 ≤ b3.toNat →
        exec .setRoute s = .next (s.answered q rest .badValue [])) ∧
      (∀ base : ChanNo, b1.toNat = base.val → 1 ≤ b2.toNat → b2.toNat ≤ 16 → b1.toNat + b2.toNat ≤ 64 → b3.toNat ≤ 1 →
        let r : Route :=
          { source := b0, base := base, lanes := b2.toNat, mirror := decide (b3 = 1),
            silence := 256 * b4.toNat + b5.toNat }
        let clash := ∃ x ∈ s.inlet.shadow, x.source ≠ r.source ∧ ∃ c, x.covers c = true ∧ r.covers c = true
        bankOk s.inlet.shadow →
        (clash → exec .setRoute s = .next (s.answered q rest .badValue [])) ∧
        (¬ clash → s.inlet.shadow.length = 24 → (∀ x ∈ s.inlet.shadow, x.source ≠ r.source) →
          exec .setRoute s = .next (s.answered q rest .full [])) ∧
        (¬ clash → s.inlet.shadow.length < 24 ∨ (∃ x ∈ s.inlet.shadow, x.source = r.source) →
          ∃ bank, exec .setRoute s =
              .next { s.answered q rest .ok [] with inlet := { s.inlet with shadow := bank } } ∧
            ∀ x, x ∈ bank ↔ x = r ∨ x ∈ s.inlet.shadow ∧ x.source ≠ r.source))) ∧
    (∀ b : Byte, q.command = 0x21 → q.params = [b] →
      ((∀ x ∈ s.inlet.shadow, x.source ≠ b) → exec .dropRoute s = .next (s.answered q rest .notFound [])) ∧
      ((∃ x ∈ s.inlet.shadow, x.source = b) →
        exec .dropRoute s = .next { s.answered q rest .ok [] with
          inlet := { s.inlet with shadow := s.inlet.shadow.filter fun x => x.source ≠ b } })) ∧
    (q.command = 0x22 → q.params = [] →
      exec .copyRoutes s = .next { s.answered q rest .ok [] with
        inlet := { s.inlet with shadow := s.inlet.active.map (·.route) } })

/-- SWAP_ROUTES with no frame in reception takes the swap at once and answers OK; with a frame in reception it waits, and
nothing else changes. SWAP_TAKEN takes a due swap and answers OK. The banks, the tracking, the unrouted channels with
their windows, and their RELEASE(UNROUTED) records are as State.swapped says (R37–R39, R57, R83, R163; the due swap's own
command is assumption 6, the expected sequence of an entry that begins assumption 11). -/
def Obligations.SwapTakenAtFrameBoundary : Prop :=
  ∀ (s : State) (q : Request) (rest : List Request), s.routesOk → q.command = 0x23 → q.params = [] →
    (s.ready q rest → s.inlet.reception = .hunting →
      ∃ t, exec .swapRoutes s = .next t ∧ s.swapped t ∧ t.mgmt = s.mgmt.answered q rest .ok []) ∧
    (s.ready q rest → s.inlet.reception ≠ .hunting →
      exec .swapRoutes s = .next { s with inlet := { s.inlet with swap := .waiting } }) ∧
    (s.power = .running → s.inlet.swap = .due → s.mgmt.requests = q :: rest →
      ∃ t, exec .swapTaken s = .next t ∧ s.swapped t ∧ t.mgmt = s.mgmt.answered q rest .ok [])

/-- SET_ALERT stores mode and hold and treats the line by the table of R180; QUIET_ALERT returns the cause set, empties it
and deasserts the line (R181, R192). -/
def Obligations.AlertRequests : Prop :=
  ∀ (s : State) (q : Request) (rest : List Request), s.ready q rest →
    (∀ m h : Byte, q.command = 0x30 → q.params = [m, h] →
      (3 ≤ m.toNat ∨ h.toNat = 0 → exec .setAlert s = .next (s.answered q rest .badValue [])) ∧
      (m.toNat = 0 → h.toNat ≠ 0 →
        exec .setAlert s = .next { s.answered q rest .ok [] with
          alert := { s.alert with mode := .off, hold := h.toNat, line := false, holdTimer := none } }) ∧
      (m.toNat = 1 → h.toNat ≠ 0 →
        exec .setAlert s = .next { s.answered q rest .ok [] with
          alert := { s.alert with
            mode := .pulse, hold := h.toNat
            holdTimer := if s.alert.mode = .latch ∧ s.alert.line = true then some h.toNat else s.alert.holdTimer } }) ∧
      (m.toNat = 2 → h.toNat ≠ 0 →
        exec .setAlert s = .next { s.answered q rest .ok [] with
          alert := { s.alert with
            mode := .latch, hold := h.toNat
            holdTimer := if s.alert.mode = .pulse then none else s.alert.holdTimer } })) ∧
    (q.command = 0x31 → q.params = [] → ∃ byte : Byte,
      exec .quietAlert s = .next { s.answered q rest .ok [byte] with
        alert := { s.alert with
          line := false, holdTimer := none
          causes := { stuck := false, noisy := false, silent := false, gap := false, loss := false, stall := false } } } ∧
      byte.getLsbD 0 = s.alert.causes.stuck ∧ byte.getLsbD 1 = s.alert.causes.noisy ∧
      byte.getLsbD 2 = s.alert.causes.silent ∧ byte.getLsbD 3 = s.alert.causes.gap ∧
      byte.getLsbD 4 = s.alert.causes.loss ∧ byte.getLsbD 5 = s.alert.causes.stall ∧ byte.getLsbD 6 = false ∧
      byte.getLsbD 7 = false)

/-- Counters: a raise adds and stops at 65535 and touches no other counter (R182); CLEAR_COUNTERS sets the named set to 0 and
touches no other set, and refuses an unknown selector (R185). -/
def Obligations.CountersRaisedAndCleared : Prop :=
  (∀ (b : CounterBank) (j k : GlobalCounter) (n : Nat),
    ((b.raiseBy k n).get k).toNat = min ((b.get k).toNat + n) 65535 ∧
    (j ≠ k → (b.raiseBy k n).get j = b.get j) ∧ (b.raiseBy k n).windows = b.windows) ∧
  (∀ (s : State) (q : Request) (rest : List Request) (kind b : Byte), s.ready q rest → q.command = 0x33 →
    q.params = [kind, b] →
    (kind = 0 → ∃ bank, exec .clearCounters s = .next { s.answered q rest .ok [] with counters := bank } ∧
      (∀ k, bank.get k = 0) ∧ bank.windows = s.counters.windows) ∧
    (∀ c : ChanNo, kind = 1 → b.toNat = c.val →
      ∃ bank, exec .clearCounters s = .next { s.answered q rest .ok [] with counters := bank } ∧
        bank.windows[c] = { accepted := 0, rejected := 0, abandoned := 0 } ∧ bank.global = s.counters.global ∧
        ∀ d : ChanNo, d ≠ c → bank.windows[d] = s.counters.windows[d]) ∧
    (2 ≤ kind.toNat ∨ kind = 1 ∧ 64 ≤ b.toNat →
      exec .clearCounters s = .next (s.answered q rest .badValue [])))

/-- RESYNC: the buffered frames are discarded and counted by their records, every flag is cleared, and every staged value
enters as a VALUE record, in ascending channel order and not counted as created (R102, R122); with none staged, queue, lists,
alert and the discards at Held lists stay as they are. Credits, rounds and the ack timer are reset; the Mirror Buffer is
emptied and counted; the response is queued. The link state, the next sequence number, the channels and the tables are
untouched (R148, R163; execution at the row's own command is assumption 5). -/
def Obligations.ResyncDiscardsFrames : Prop :=
  ∀ (s : State) (q : Request) (rest : List Request), s.ready q rest → q.command = 0x40 → q.params = [] →
    ∃ t, exec .resync s = .next t ∧
      t.link = { s.link with
        replay := [], credits := 0, roundCount := 0, roundLeft := 0, ackTimer := none, mirror := [] } ∧
      t.mgmt = s.mgmt.answered q rest .ok [] ∧
      (∃ cleared : Events, cleared.queue = s.events.queue ∧ cleared.deferred = s.events.deferred ∧
        (∀ c, cleared.del c = { s.events.del c with inFlight := false }) ∧
        t.events = (List.finRange 64).foldl Events.unstage cleared ∧
        let entered := (List.finRange 64).foldl State.unstage { s with events := cleared }
        t.alert = entered.alert ∧ t.counters.get .heldDiscards = entered.counters.get .heldDiscards) ∧
      (∀ c, (t.events.del c).inFlight = false ∧ (t.events.del c).staged = none) ∧
      ((∀ c, (s.events.del c).staged = none) → t.events.queue = s.events.queue ∧
        t.events.deferred = s.events.deferred ∧ t.alert = s.alert ∧
        t.counters.get .heldDiscards = s.counters.get .heldDiscards ∧
        ∀ c, t.events.del c = { s.events.del c with inFlight := false }) ∧
      t.counters.get .resyncDiscards =
        satAdd (s.counters.get .resyncDiscards) (s.link.replay.flatMap (·.records)).length ∧
      t.counters.get .mirrorDiscards = satAdd (s.counters.get .mirrorDiscards) s.link.mirror.length ∧
      (∀ k, k ≠ .resyncDiscards → k ≠ .mirrorDiscards → k ≠ .heldDiscards → t.counters.get k = s.counters.get k) ∧
      t.counters.windows = s.counters.windows ∧
      t.power = s.power ∧ t.time = s.time ∧ t.inlet = s.inlet ∧ t.channels = s.channels ∧ t.groups = s.groups ∧
      t.profiles = s.profiles ∧ t.pending = s.pending

/-! ### Invariants that every step keeps -/

/-- The release threshold of every profile lies below its onset threshold and its breakpoints never decrease: in the profile
defaults, after every step, and no block that breaks it is stored (R8). -/
def Obligations.ProfilesStayValid : Prop :=
  let ok (p : Profile) : Prop := p.release < p.onset ∧ p.b1 ≤ p.b2 ∧ p.b2 ≤ p.b3 ∧ p.b3 ≤ p.b4
  ok Profile.initial ∧
  (∀ s t : State, (∀ n : Fin 16, ok s.profiles[n]) → step s = .next t → ∀ n : Fin 16, ok t.profiles[n]) ∧
  (∀ (s : State) (q : Request) (rest : List Request) (fixed : Bool), s.ready q rest → q.command = 0x10 →
    q.params.length = 28 → ¬ ok (profileFields q.params fixed) →
    exec .setProfile s = .next (s.answered q rest .badValue []))

/-- Every step keeps the relations of R63, R66, R68, R78 and R90 between the fields of every channel. -/
def Obligations.StepKeepsChannelsConsistent : Prop :=
  ∀ s t : State, s.channelsConsistent → step s = .next t → t.channelsConsistent

/-- Every step keeps the profiles valid and every window, mean, rate, baseline and published value in its range (R3, R4, R7,
R45). -/
def Obligations.StepKeepsLevelsInRange : Prop :=
  ∀ s t : State, s.levelsInRange → step s = .next t → t.levelsInRange

/-- Every step keeps each group's member count equal to the number of channels that name it, and tier 0 in a group without
members (R11, R12, R54). -/
def Obligations.StepKeepsGroupsConsistent : Prop :=
  ∀ s t : State, s.groupsConsistent → step s = .next t → t.groupsConsistent

/-- Every step keeps the conditions of both route banks and of the active entries' tracking (R21, R22). The order of a bank
is the model's form (assumption 12). -/
def Obligations.StepKeepsRoutesOk : Prop :=
  ∀ s t : State, s.routesOk → step s = .next t → t.routesOk

/-- Every step keeps the bounds of the Event Queue and the Held lists and the conditions of the Deferred list and the pending
losses (R105–R107, R114). -/
def Obligations.StepKeepsEventsOrdered : Prop :=
  ∀ s t : State, s.events.ordered → step s = .next t → t.events.ordered

/-- Every step keeps at most one VALUE record of each channel in queue, Held list and Replay Buffer together, the flag set
exactly while it lies in the Replay Buffer, and a staged value only under the flag (R108, R115). -/
def Obligations.StepKeepsOneValueEach : Prop :=
  ∀ s t : State, s.events.ordered → s.oneValueEach → step s = .next t → t.oneValueEach

/-- Every step keeps the bounds and relations of the outlet link: credits at most 31, at most 4 buffered frames with
consecutive numbers, an empty buffer in DOWN, the timers' and the Mirror Buffer's states (R126, R132, R135, R139–R141,
R145). -/
def Obligations.StepKeepsLinkOk : Prop :=
  ∀ s t : State, s.mgmtOk → s.linkOk → step s = .next t → t.linkOk

/-- Every step keeps the bounds of the Management Unit's queues and cache, with no tag twice in either and none in both, and
a waiting swap's request at the head (R154, R155, R161). -/
def Obligations.StepKeepsMgmtOk : Prop :=
  ∀ s t : State, s.mgmtOk → step s = .next t → t.mgmtOk

/-- Every step keeps the Alert Unit's relations between mode, line and hold timer (R177, R180), and keeps every block, while a
power reset holds the part, at its power-reset values (R150) and the next sequence number, to which R150 gives no such value,
at 0 (the model's choice, assumption 10). -/
def Obligations.StepKeepsAlertAndHeld : Prop :=
  ∀ s t : State, s.alert.ok → s.heldOk → step s = .next t → t.alert.ok ∧ t.heldOk

end
end

