-- ==== Sys2Proof/Laws/State.lean ====
section
/-! SUPPORT. Each field of the state after each plain update, true by unfolding, so that no proof unfolds a record
update. -/

namespace Sys2Proof.Machine

section
variable (s : State) (c : ChanNo) (ch : Channel)
@[simp] theorem State.setChan_power : (s.setChan c ch).power = s.power := rfl
@[simp] theorem State.setChan_time : (s.setChan c ch).time = s.time := rfl
@[simp] theorem State.setChan_inlet : (s.setChan c ch).inlet = s.inlet := rfl
@[simp] theorem State.setChan_channels : (s.setChan c ch).channels = s.channels.set c ch := rfl
@[simp] theorem State.setChan_groups : (s.setChan c ch).groups = s.groups := rfl
@[simp] theorem State.setChan_profiles : (s.setChan c ch).profiles = s.profiles := rfl
@[simp] theorem State.setChan_events : (s.setChan c ch).events = s.events := rfl
@[simp] theorem State.setChan_link : (s.setChan c ch).link = s.link := rfl
@[simp] theorem State.setChan_mgmt : (s.setChan c ch).mgmt = s.mgmt := rfl
@[simp] theorem State.setChan_alert : (s.setChan c ch).alert = s.alert := rfl
@[simp] theorem State.setChan_counters : (s.setChan c ch).counters = s.counters := rfl
@[simp] theorem State.setChan_pending : (s.setChan c ch).pending = s.pending := rfl
end

section
variable (s : State) (c : ChanNo) (f : RunPart → RunPart)
@[simp] theorem State.modRun_power : (s.modRun c f).power = s.power := rfl
@[simp] theorem State.modRun_time : (s.modRun c f).time = s.time := rfl
@[simp] theorem State.modRun_inlet : (s.modRun c f).inlet = s.inlet := rfl
@[simp] theorem State.modRun_groups : (s.modRun c f).groups = s.groups := rfl
@[simp] theorem State.modRun_profiles : (s.modRun c f).profiles = s.profiles := rfl
@[simp] theorem State.modRun_events : (s.modRun c f).events = s.events := rfl
@[simp] theorem State.modRun_link : (s.modRun c f).link = s.link := rfl
@[simp] theorem State.modRun_mgmt : (s.modRun c f).mgmt = s.mgmt := rfl
@[simp] theorem State.modRun_alert : (s.modRun c f).alert = s.alert := rfl
@[simp] theorem State.modRun_counters : (s.modRun c f).counters = s.counters := rfl
@[simp] theorem State.modRun_pending : (s.modRun c f).pending = s.pending := rfl
end

section
variable (s : State) (c : ChanNo) (f : WindowPart → WindowPart)
@[simp] theorem State.modWindow_power : (s.modWindow c f).power = s.power := rfl
@[simp] theorem State.modWindow_time : (s.modWindow c f).time = s.time := rfl
@[simp] theorem State.modWindow_inlet : (s.modWindow c f).inlet = s.inlet := rfl
@[simp] theorem State.modWindow_groups : (s.modWindow c f).groups = s.groups := rfl
@[simp] theorem State.modWindow_profiles : (s.modWindow c f).profiles = s.profiles := rfl
@[simp] theorem State.modWindow_events : (s.modWindow c f).events = s.events := rfl
@[simp] theorem State.modWindow_link : (s.modWindow c f).link = s.link := rfl
@[simp] theorem State.modWindow_mgmt : (s.modWindow c f).mgmt = s.mgmt := rfl
@[simp] theorem State.modWindow_alert : (s.modWindow c f).alert = s.alert := rfl
@[simp] theorem State.modWindow_counters : (s.modWindow c f).counters = s.counters := rfl
@[simp] theorem State.modWindow_pending : (s.modWindow c f).pending = s.pending := rfl
end

section
variable (s : State) (c : ChanNo) (f : ChannelConfig → ChannelConfig)
@[simp] theorem State.modConfig_power : (s.modConfig c f).power = s.power := rfl
@[simp] theorem State.modConfig_time : (s.modConfig c f).time = s.time := rfl
@[simp] theorem State.modConfig_inlet : (s.modConfig c f).inlet = s.inlet := rfl
@[simp] theorem State.modConfig_groups : (s.modConfig c f).groups = s.groups := rfl
@[simp] theorem State.modConfig_profiles : (s.modConfig c f).profiles = s.profiles := rfl
@[simp] theorem State.modConfig_events : (s.modConfig c f).events = s.events := rfl
@[simp] theorem State.modConfig_link : (s.modConfig c f).link = s.link := rfl
@[simp] theorem State.modConfig_mgmt : (s.modConfig c f).mgmt = s.mgmt := rfl
@[simp] theorem State.modConfig_alert : (s.modConfig c f).alert = s.alert := rfl
@[simp] theorem State.modConfig_counters : (s.modConfig c f).counters = s.counters := rfl
@[simp] theorem State.modConfig_pending : (s.modConfig c f).pending = s.pending := rfl
end

section
variable (s : State) (c : ChanNo)
@[simp] theorem State.enterIdle_power : (s.enterIdle c).power = s.power := rfl
@[simp] theorem State.enterIdle_time : (s.enterIdle c).time = s.time := rfl
@[simp] theorem State.enterIdle_inlet : (s.enterIdle c).inlet = s.inlet := rfl
@[simp] theorem State.enterIdle_groups : (s.enterIdle c).groups = s.groups := rfl
@[simp] theorem State.enterIdle_profiles : (s.enterIdle c).profiles = s.profiles := rfl
@[simp] theorem State.enterIdle_events : (s.enterIdle c).events = s.events := rfl
@[simp] theorem State.enterIdle_link : (s.enterIdle c).link = s.link := rfl
@[simp] theorem State.enterIdle_mgmt : (s.enterIdle c).mgmt = s.mgmt := rfl
@[simp] theorem State.enterIdle_alert : (s.enterIdle c).alert = s.alert := rfl
@[simp] theorem State.enterIdle_counters : (s.enterIdle c).counters = s.counters := rfl
@[simp] theorem State.enterIdle_pending : (s.enterIdle c).pending = s.pending := rfl
end

section
variable (s : State) (c : ChanNo)
@[simp] theorem State.forgetMean_power : (s.forgetMean c).power = s.power := rfl
@[simp] theorem State.forgetMean_time : (s.forgetMean c).time = s.time := rfl
@[simp] theorem State.forgetMean_inlet : (s.forgetMean c).inlet = s.inlet := rfl
@[simp] theorem State.forgetMean_groups : (s.forgetMean c).groups = s.groups := rfl
@[simp] theorem State.forgetMean_profiles : (s.forgetMean c).profiles = s.profiles := rfl
@[simp] theorem State.forgetMean_events : (s.forgetMean c).events = s.events := rfl
@[simp] theorem State.forgetMean_link : (s.forgetMean c).link = s.link := rfl
@[simp] theorem State.forgetMean_mgmt : (s.forgetMean c).mgmt = s.mgmt := rfl
@[simp] theorem State.forgetMean_alert : (s.forgetMean c).alert = s.alert := rfl
@[simp] theorem State.forgetMean_counters : (s.forgetMean c).counters = s.counters := rfl
@[simp] theorem State.forgetMean_pending : (s.forgetMean c).pending = s.pending := rfl
end

section
variable (s : State) (c : ChanNo) (cause : CaptureCause)
@[simp] theorem State.enterSettling_power : (s.enterSettling c cause).power = s.power := rfl
@[simp] theorem State.enterSettling_time : (s.enterSettling c cause).time = s.time := rfl
@[simp] theorem State.enterSettling_inlet : (s.enterSettling c cause).inlet = s.inlet := rfl
@[simp] theorem State.enterSettling_groups : (s.enterSettling c cause).groups = s.groups := rfl
@[simp] theorem State.enterSettling_profiles : (s.enterSettling c cause).profiles = s.profiles := rfl
@[simp] theorem State.enterSettling_events : (s.enterSettling c cause).events = s.events := rfl
@[simp] theorem State.enterSettling_link : (s.enterSettling c cause).link = s.link := rfl
@[simp] theorem State.enterSettling_mgmt : (s.enterSettling c cause).mgmt = s.mgmt := rfl
@[simp] theorem State.enterSettling_alert : (s.enterSettling c cause).alert = s.alert := rfl
@[simp] theorem State.enterSettling_counters : (s.enterSettling c cause).counters = s.counters := rfl
@[simp] theorem State.enterSettling_pending : (s.enterSettling c cause).pending = s.pending := rfl
end

section
variable (s : State) (c : ChanNo)
@[simp] theorem State.enterOff_power : (s.enterOff c).power = s.power := rfl
@[simp] theorem State.enterOff_time : (s.enterOff c).time = s.time := rfl
@[simp] theorem State.enterOff_inlet : (s.enterOff c).inlet = s.inlet := rfl
@[simp] theorem State.enterOff_groups : (s.enterOff c).groups = s.groups := rfl
@[simp] theorem State.enterOff_profiles : (s.enterOff c).profiles = s.profiles := rfl
@[simp] theorem State.enterOff_events : (s.enterOff c).events = s.events := rfl
@[simp] theorem State.enterOff_link : (s.enterOff c).link = s.link := rfl
@[simp] theorem State.enterOff_mgmt : (s.enterOff c).mgmt = s.mgmt := rfl
@[simp] theorem State.enterOff_alert : (s.enterOff c).alert = s.alert := rfl
@[simp] theorem State.enterOff_counters : (s.enterOff c).counters = s.counters := rfl
@[simp] theorem State.enterOff_pending : (s.enterOff c).pending = s.pending := rfl
end

section
variable (s : State) (k : GlobalCounter) (n : Nat)
@[simp] theorem State.raiseBy_power : (s.raiseBy k n).power = s.power := rfl
@[simp] theorem State.raiseBy_time : (s.raiseBy k n).time = s.time := rfl
@[simp] theorem State.raiseBy_inlet : (s.raiseBy k n).inlet = s.inlet := rfl
@[simp] theorem State.raiseBy_channels : (s.raiseBy k n).channels = s.channels := rfl
@[simp] theorem State.raiseBy_groups : (s.raiseBy k n).groups = s.groups := rfl
@[simp] theorem State.raiseBy_profiles : (s.raiseBy k n).profiles = s.profiles := rfl
@[simp] theorem State.raiseBy_events : (s.raiseBy k n).events = s.events := rfl
@[simp] theorem State.raiseBy_link : (s.raiseBy k n).link = s.link := rfl
@[simp] theorem State.raiseBy_mgmt : (s.raiseBy k n).mgmt = s.mgmt := rfl
@[simp] theorem State.raiseBy_alert : (s.raiseBy k n).alert = s.alert := rfl
@[simp] theorem State.raiseBy_counters : (s.raiseBy k n).counters = s.counters.raiseBy k n := rfl
@[simp] theorem State.raiseBy_pending : (s.raiseBy k n).pending = s.pending := rfl
end

section
variable (s : State) (k : GlobalCounter)
@[simp] theorem State.raise_power : (s.raise k).power = s.power := rfl
@[simp] theorem State.raise_time : (s.raise k).time = s.time := rfl
@[simp] theorem State.raise_inlet : (s.raise k).inlet = s.inlet := rfl
@[simp] theorem State.raise_channels : (s.raise k).channels = s.channels := rfl
@[simp] theorem State.raise_groups : (s.raise k).groups = s.groups := rfl
@[simp] theorem State.raise_profiles : (s.raise k).profiles = s.profiles := rfl
@[simp] theorem State.raise_events : (s.raise k).events = s.events := rfl
@[simp] theorem State.raise_link : (s.raise k).link = s.link := rfl
@[simp] theorem State.raise_mgmt : (s.raise k).mgmt = s.mgmt := rfl
@[simp] theorem State.raise_alert : (s.raise k).alert = s.alert := rfl
@[simp] theorem State.raise_counters : (s.raise k).counters = s.counters.raiseBy k 1 := rfl
@[simp] theorem State.raise_pending : (s.raise k).pending = s.pending := rfl
end

section
variable (s : State) (c : ChanNo) (f : WindowCounts → WindowCounts)
@[simp] theorem State.raiseWindows_power : (s.raiseWindows c f).power = s.power := rfl
@[simp] theorem State.raiseWindows_time : (s.raiseWindows c f).time = s.time := rfl
@[simp] theorem State.raiseWindows_inlet : (s.raiseWindows c f).inlet = s.inlet := rfl
@[simp] theorem State.raiseWindows_channels : (s.raiseWindows c f).channels = s.channels := rfl
@[simp] theorem State.raiseWindows_groups : (s.raiseWindows c f).groups = s.groups := rfl
@[simp] theorem State.raiseWindows_profiles : (s.raiseWindows c f).profiles = s.profiles := rfl
@[simp] theorem State.raiseWindows_events : (s.raiseWindows c f).events = s.events := rfl
@[simp] theorem State.raiseWindows_link : (s.raiseWindows c f).link = s.link := rfl
@[simp] theorem State.raiseWindows_mgmt : (s.raiseWindows c f).mgmt = s.mgmt := rfl
@[simp] theorem State.raiseWindows_alert : (s.raiseWindows c f).alert = s.alert := rfl
@[simp] theorem State.raiseWindows_counters : (s.raiseWindows c f).counters = s.counters.modWindows c f := rfl
@[simp] theorem State.raiseWindows_pending : (s.raiseWindows c f).pending = s.pending := rfl
end

section
variable (s : State) (x : Cause)
@[simp] theorem State.report_power : (s.report x).power = s.power := rfl
@[simp] theorem State.report_time : (s.report x).time = s.time := rfl
@[simp] theorem State.report_inlet : (s.report x).inlet = s.inlet := rfl
@[simp] theorem State.report_channels : (s.report x).channels = s.channels := rfl
@[simp] theorem State.report_groups : (s.report x).groups = s.groups := rfl
@[simp] theorem State.report_profiles : (s.report x).profiles = s.profiles := rfl
@[simp] theorem State.report_events : (s.report x).events = s.events := rfl
@[simp] theorem State.report_link : (s.report x).link = s.link := rfl
@[simp] theorem State.report_mgmt : (s.report x).mgmt = s.mgmt := rfl
@[simp] theorem State.report_alert : (s.report x).alert = s.alert.report x := rfl
@[simp] theorem State.report_counters : (s.report x).counters = s.counters := rfl
@[simp] theorem State.report_pending : (s.report x).pending = s.pending := rfl
end

section
variable (s : State) (f : Link → Link)
@[simp] theorem State.modLink_power : (s.modLink f).power = s.power := rfl
@[simp] theorem State.modLink_time : (s.modLink f).time = s.time := rfl
@[simp] theorem State.modLink_inlet : (s.modLink f).inlet = s.inlet := rfl
@[simp] theorem State.modLink_channels : (s.modLink f).channels = s.channels := rfl
@[simp] theorem State.modLink_groups : (s.modLink f).groups = s.groups := rfl
@[simp] theorem State.modLink_profiles : (s.modLink f).profiles = s.profiles := rfl
@[simp] theorem State.modLink_events : (s.modLink f).events = s.events := rfl
@[simp] theorem State.modLink_link : (s.modLink f).link = f s.link := rfl
@[simp] theorem State.modLink_mgmt : (s.modLink f).mgmt = s.mgmt := rfl
@[simp] theorem State.modLink_alert : (s.modLink f).alert = s.alert := rfl
@[simp] theorem State.modLink_counters : (s.modLink f).counters = s.counters := rfl
@[simp] theorem State.modLink_pending : (s.modLink f).pending = s.pending := rfl
end

section
variable (s : State) (x : OutFrame)
@[simp] theorem State.transmit_power : (s.transmit x).power = s.power := rfl
@[simp] theorem State.transmit_time : (s.transmit x).time = s.time := rfl
@[simp] theorem State.transmit_inlet : (s.transmit x).inlet = s.inlet := rfl
@[simp] theorem State.transmit_channels : (s.transmit x).channels = s.channels := rfl
@[simp] theorem State.transmit_groups : (s.transmit x).groups = s.groups := rfl
@[simp] theorem State.transmit_profiles : (s.transmit x).profiles = s.profiles := rfl
@[simp] theorem State.transmit_events : (s.transmit x).events = s.events := rfl
@[simp] theorem State.transmit_link : (s.transmit x).link = { s.link with lane := some x } := rfl
@[simp] theorem State.transmit_mgmt : (s.transmit x).mgmt = s.mgmt := rfl
@[simp] theorem State.transmit_alert : (s.transmit x).alert = s.alert := rfl
@[simp] theorem State.transmit_counters : (s.transmit x).counters = s.counters := rfl
@[simp] theorem State.transmit_pending : (s.transmit x).pending = s.pending := rfl
end

section
variable (s : State) (r : Response)
@[simp] theorem State.pushResponse_power : (s.pushResponse r).power = s.power := rfl
@[simp] theorem State.pushResponse_time : (s.pushResponse r).time = s.time := rfl
@[simp] theorem State.pushResponse_inlet : (s.pushResponse r).inlet = s.inlet := rfl
@[simp] theorem State.pushResponse_channels : (s.pushResponse r).channels = s.channels := rfl
@[simp] theorem State.pushResponse_groups : (s.pushResponse r).groups = s.groups := rfl
@[simp] theorem State.pushResponse_profiles : (s.pushResponse r).profiles = s.profiles := rfl
@[simp] theorem State.pushResponse_events : (s.pushResponse r).events = s.events := rfl
@[simp] theorem State.pushResponse_link : (s.pushResponse r).link = s.link := rfl
@[simp] theorem State.pushResponse_mgmt : (s.pushResponse r).mgmt = { s.mgmt with responses := s.mgmt.responses ++ [r] } := rfl
@[simp] theorem State.pushResponse_alert : (s.pushResponse r).alert = s.alert := rfl
@[simp] theorem State.pushResponse_counters : (s.pushResponse r).counters = s.counters := rfl
@[simp] theorem State.pushResponse_pending : (s.pushResponse r).pending = s.pending := rfl
end

section
variable (s : State) (f : Inlet → Inlet)
@[simp] theorem State.modInlet_power : (s.modInlet f).power = s.power := rfl
@[simp] theorem State.modInlet_time : (s.modInlet f).time = s.time := rfl
@[simp] theorem State.modInlet_inlet : (s.modInlet f).inlet = f s.inlet := rfl
@[simp] theorem State.modInlet_channels : (s.modInlet f).channels = s.channels := rfl
@[simp] theorem State.modInlet_groups : (s.modInlet f).groups = s.groups := rfl
@[simp] theorem State.modInlet_profiles : (s.modInlet f).profiles = s.profiles := rfl
@[simp] theorem State.modInlet_events : (s.modInlet f).events = s.events := rfl
@[simp] theorem State.modInlet_link : (s.modInlet f).link = s.link := rfl
@[simp] theorem State.modInlet_mgmt : (s.modInlet f).mgmt = s.mgmt := rfl
@[simp] theorem State.modInlet_alert : (s.modInlet f).alert = s.alert := rfl
@[simp] theorem State.modInlet_counters : (s.modInlet f).counters = s.counters := rfl
@[simp] theorem State.modInlet_pending : (s.modInlet f).pending = s.pending := rfl
end

section
variable (s : State) (src : Byte) (f : Tracking → Tracking)
@[simp] theorem State.modTrack_power : (s.modTrack src f).power = s.power := rfl
@[simp] theorem State.modTrack_time : (s.modTrack src f).time = s.time := rfl
@[simp] theorem State.modTrack_channels : (s.modTrack src f).channels = s.channels := rfl
@[simp] theorem State.modTrack_groups : (s.modTrack src f).groups = s.groups := rfl
@[simp] theorem State.modTrack_profiles : (s.modTrack src f).profiles = s.profiles := rfl
@[simp] theorem State.modTrack_events : (s.modTrack src f).events = s.events := rfl
@[simp] theorem State.modTrack_link : (s.modTrack src f).link = s.link := rfl
@[simp] theorem State.modTrack_mgmt : (s.modTrack src f).mgmt = s.mgmt := rfl
@[simp] theorem State.modTrack_alert : (s.modTrack src f).alert = s.alert := rfl
@[simp] theorem State.modTrack_counters : (s.modTrack src f).counters = s.counters := rfl
@[simp] theorem State.modTrack_pending : (s.modTrack src f).pending = s.pending := rfl
end

end Sys2Proof.Machine
end

