-- ==== Sys2Proof/Laws/Tables.lean ====
section
/-! SUPPORT. Reading a table after writing it: channels, delivery parts, counters. -/

namespace Sys2Proof.Machine

@[simp] theorem getElem_vmap {α β : Type} {n : Nat} (f : α → β) (v : Vector α n) (i : Nat) (h : i < n) :
    (vmap f v)[i] = f v[i] := by
  simp [vmap]

@[simp] theorem mem_allChannels (c : ChanNo) : c ∈ allChannels := by simp [allChannels]

/-! ### Channels -/

/-- The Channel Table, listed by channel number. -/
theorem State.channels_toList (s : State) : s.channels.toList = allChannels.map s.chan := by
  apply List.ext_getElem
  · simp [allChannels]
  · intro i h1 h2
    simp [State.chan, allChannels]

@[simp] theorem State.chan_setChan_same (s : State) (c : ChanNo) (ch : Channel) : (s.setChan c ch).chan c = ch := by
  simp [State.chan, State.setChan]

theorem State.chan_setChan_other (s : State) {c d : ChanNo} (ch : Channel) (h : d ≠ c) :
    (s.setChan c ch).chan d = s.chan d := by
  have : c.val ≠ d.val := fun e => h (Fin.ext e.symm)
  simp [State.chan, State.setChan, Vector.getElem_set_ne, this]

theorem State.chan_congr {s t : State} (h : t.channels = s.channels) (c : ChanNo) : t.chan c = s.chan c := by
  simp [State.chan, h]

@[simp] theorem State.chan_modRun_same (s : State) (c : ChanNo) (f : RunPart → RunPart) :
    (s.modRun c f).chan c = { s.chan c with run := f (s.chan c).run } := by simp [State.modRun]

@[simp] theorem State.chan_modWindow_same (s : State) (c : ChanNo) (f : WindowPart → WindowPart) :
    (s.modWindow c f).chan c = { s.chan c with window := f (s.chan c).window } := by simp [State.modWindow]

@[simp] theorem State.chan_modConfig_same (s : State) (c : ChanNo) (f : ChannelConfig → ChannelConfig) :
    (s.modConfig c f).chan c = { s.chan c with config := f (s.chan c).config } := by simp [State.modConfig]

theorem State.chan_modRun_other (s : State) {c d : ChanNo} (f : RunPart → RunPart) (h : d ≠ c) :
    (s.modRun c f).chan d = s.chan d := s.chan_setChan_other _ h

theorem State.chan_modWindow_other (s : State) {c d : ChanNo} (f : WindowPart → WindowPart) (h : d ≠ c) :
    (s.modWindow c f).chan d = s.chan d := s.chan_setChan_other _ h

theorem State.chan_modConfig_other (s : State) {c d : ChanNo} (f : ChannelConfig → ChannelConfig) (h : d ≠ c) :
    (s.modConfig c f).chan d = s.chan d := s.chan_setChan_other _ h

@[simp] theorem State.chan_raiseBy (s : State) (k : GlobalCounter) (n : Nat) (c : ChanNo) :
    (s.raiseBy k n).chan c = s.chan c := rfl

@[simp] theorem State.chan_raise (s : State) (k : GlobalCounter) (c : ChanNo) : (s.raise k).chan c = s.chan c := rfl

@[simp] theorem State.chan_raiseWindows (s : State) (d : ChanNo) (f : WindowCounts → WindowCounts) (c : ChanNo) :
    (s.raiseWindows d f).chan c = s.chan c := rfl

@[simp] theorem State.chan_report (s : State) (x : Cause) (c : ChanNo) : (s.report x).chan c = s.chan c := rfl

@[simp] theorem State.chan_modLink (s : State) (f : Link → Link) (c : ChanNo) : (s.modLink f).chan c = s.chan c := rfl

@[simp] theorem State.chan_modInlet (s : State) (f : Inlet → Inlet) (c : ChanNo) :
    (s.modInlet f).chan c = s.chan c := rfl

@[simp] theorem State.chan_modTrack (s : State) (src : Byte) (f : Tracking → Tracking) (c : ChanNo) :
    (s.modTrack src f).chan c = s.chan c := rfl

/-! ### Delivery parts -/

@[simp] theorem Events.del_setDel_same (e : Events) (c : ChanNo) (d : Delivery) : (e.setDel c d).del c = d := by
  simp [Events.del, Events.setDel]

theorem Events.del_setDel_other (e : Events) {c c' : ChanNo} (d : Delivery) (h : c' ≠ c) :
    (e.setDel c d).del c' = e.del c' := by
  have : c.val ≠ c'.val := fun x => h (Fin.ext x.symm)
  simp [Events.del, Events.setDel, Vector.getElem_set_ne, this]

@[simp] theorem Events.setDel_queue (e : Events) (c : ChanNo) (d : Delivery) : (e.setDel c d).queue = e.queue := rfl

@[simp] theorem Events.setDel_deferred (e : Events) (c : ChanNo) (d : Delivery) :
    (e.setDel c d).deferred = e.deferred := rfl

/-- Writing a delivery part back as it stands changes nothing. -/
theorem Events.setDel_del (e : Events) (c : ChanNo) : e.setDel c (e.del c) = e := by
  simp [Events.setDel, Events.del]

/-! ### Counters -/

theorem satAdd_le (c : Count16) (n : Nat) : c.toNat ≤ (satAdd c n).toNat := by
  unfold satAdd
  have := c.isLt
  split
  · rw [BitVec.toNat_ofNat]
    omega
  · simp
    omega

/-- A counter after a raise: the sum, or 65535 where the sum reaches it (R182). -/
theorem satAdd_toNat (c : Count16) (n : Nat) : (satAdd c n).toNat = min (c.toNat + n) 65535 := by
  unfold satAdd
  split
  · rw [BitVec.toNat_ofNat]
    omega
  · simp
    omega

@[simp] theorem CounterBank.get_raiseBy_same (b : CounterBank) (k : GlobalCounter) (n : Nat) :
    (b.raiseBy k n).get k = satAdd (b.get k) n := by
  simp [CounterBank.get, CounterBank.raiseBy]

theorem GlobalCounter.idx_injective {j k : GlobalCounter} (h : j.idx.val = k.idx.val) : j = k := by
  revert h
  cases j <;> cases k <;> decide

theorem CounterBank.get_raiseBy_other (b : CounterBank) {j k : GlobalCounter} (n : Nat) (h : j ≠ k) :
    (b.raiseBy k n).get j = b.get j := by
  have : k.idx.val ≠ j.idx.val := fun e => h (GlobalCounter.idx_injective e.symm)
  simp [CounterBank.get, CounterBank.raiseBy, Vector.getElem_set_ne, this]

@[simp] theorem CounterBank.raiseBy_windows (b : CounterBank) (k : GlobalCounter) (n : Nat) :
    (b.raiseBy k n).windows = b.windows := rfl

@[simp] theorem CounterBank.get_modWindows (b : CounterBank) (c : ChanNo) (f : WindowCounts → WindowCounts)
    (k : GlobalCounter) : (b.modWindows c f).get k = b.get k := rfl

end Sys2Proof.Machine
end

