-- ==== Sys2Proof/Laws/Events.lean ====
section
/-! SUPPORT. What the event path can do to a state (chapter 6): which fields a handed record, a delivered frame or a
resync leaves alone, and the cases of record entry one by one. -/

namespace Sys2Proof.Machine

/-! ### The cases of record entry (R109) -/

theorem Events.enter_coalesceQueued {e : Events} {r : Record} (h : e.entryCase r = .coalesceQueued) :
    e.enter r = { e with queue := coalesceIn r e.queue } := by simp [Events.enter, h]

theorem Events.enter_coalesceHeld {e : Events} {r : Record} (h : e.entryCase r = .coalesceHeld) :
    e.enter r = e.setDel r.channel { e.del r.channel with held := coalesceIn r (e.del r.channel).held } := by
  simp [Events.enter, h]

theorem Events.enter_stage {e : Events} {r : Record} {v : Nat} {t : Tier} (h : e.entryCase r = .stage v t) :
    e.enter r = e.setDel r.channel { e.del r.channel with staged := some { value := v, tier := t, time := r.time } } := by
  simp [Events.enter, h]

theorem Events.enter_append {e : Events} {r : Record} (h : e.entryCase r = .append) :
    e.enter r = e.setDel r.channel { e.del r.channel with held := (e.del r.channel).held ++ [r] } := by
  simp [Events.enter, h]

theorem Events.enter_discard {e : Events} {r : Record} (h : e.entryCase r = .discard) :
    e.enter r =
      e.setDel r.channel
        { e.del r.channel with pendingLoss := min ((e.del r.channel).pendingLoss + 1) Config.lossMax } := by
  simp [Events.enter, h]

theorem Events.enter_enqueue {e : Events} {r : Record} (h : e.entryCase r = .enqueue) : e.enter r = e.enqueue r := by
  simp [Events.enter, h]

theorem Events.enter_hold {e : Events} {r : Record} (h : e.entryCase r = .hold) :
    e.enter r =
      { e.setDel r.channel { e.del r.channel with held := [r] } with deferred := e.deferred ++ [r.channel] } := by
  simp [Events.enter, h]

theorem Events.lateCase_append {e : Events} {c : ChanNo} (h : e.lateCase c = .append) :
    (e.del c).held ≠ [] ∧ (e.del c).held.length < Config.heldCapacity := by
  unfold Events.lateCase at h
  split at h
  · split at h
    · exact ⟨by assumption, by assumption⟩
    · simp at h
  · split at h <;> simp at h

theorem Events.lateCase_enqueue {e : Events} {c : ChanNo} (h : e.lateCase c = .enqueue) :
    (e.del c).held = [] ∧ e.queue.length < Config.queueCapacity := by
  unfold Events.lateCase at h
  split at h
  · split at h <;> simp at h
  · rename_i hh
    split at h
    · exact ⟨by simpa using hh, by assumption⟩
    · simp at h

theorem Events.lateCase_hold {e : Events} {c : ChanNo} (h : e.lateCase c = .hold) :
    (e.del c).held = [] ∧ Config.queueCapacity ≤ e.queue.length := by
  unfold Events.lateCase at h
  split at h
  · split at h <;> simp at h
  · rename_i hh
    split at h
    · simp at h
    · exact ⟨by simpa using hh, by omega⟩

theorem Events.lateCase_discard {e : Events} {c : ChanNo} (h : e.lateCase c = .discard) :
    (e.del c).held ≠ [] ∧ Config.heldCapacity ≤ (e.del c).held.length := by
  unfold Events.lateCase at h
  split at h
  · split at h
    · simp at h
    · exact ⟨by assumption, by omega⟩
  · split at h <;> simp at h

/-- A record that is no VALUE meets only the last three cases of R109. -/
theorem Events.entryCase_of_not_value {e : Events} {r : Record} (h : r.isValue = false) :
    e.entryCase r = e.lateCase r.channel := by
  unfold Events.entryCase
  split
  · simp_all [Record.isValue]
  · rfl

/-- Entering a record leaves every other channel's delivery part alone (R109). -/
theorem Events.del_enter_other (e : Events) (r : Record) {c : ChanNo} (h : c ≠ r.channel) :
    (e.enter r).del c = e.del c := by
  unfold Events.enter
  split
  · rfl
  · exact e.del_setDel_other _ h
  · exact e.del_setDel_other _ h
  · exact e.del_setDel_other _ h
  · exact e.del_setDel_other _ h
  · exact e.del_setDel_other _ h
  · exact e.del_setDel_other _ h

/-- Entering a record never changes a value-in-flight flag (R108). -/
theorem Events.inFlight_enter (e : Events) (r : Record) (c : ChanNo) :
    ((e.enter r).del c).inFlight = (e.del c).inFlight := by
  by_cases h : c = r.channel
  · subst h
    unfold Events.enter
    split <;> simp [Events.enqueue, Events.del, Events.setDel]
  · rw [e.del_enter_other r h]

/-! ### What only the event path changes -/

/-- `t` differs from `s` at most in what handing and releasing records changes: the events, by records entered; the
alert, by causes reported; and the counters. -/
structure HandsOnly (s t : State) : Prop where
  power : t.power = s.power
  time : t.time = s.time
  inlet : t.inlet = s.inlet
  channels : t.channels = s.channels
  groups : t.groups = s.groups
  profiles : t.profiles = s.profiles
  link : t.link = s.link
  mgmt : t.mgmt = s.mgmt
  pending : t.pending = s.pending
  /-- What every entered record keeps is kept. -/
  events : ∀ I : Events → Prop, (∀ e r, I e → I (e.enter r)) → I s.events → I t.events
  /-- What every report keeps is kept. -/
  alert : ∀ I : Alert → Prop, (∀ a x, I a → I (a.report x)) → I s.alert → I t.alert
  /-- Of the global counters, only the two of record entry can move. -/
  counts : ∀ k, k ≠ .recordsCreated → k ≠ .heldDiscards → t.counters.get k = s.counters.get k

theorem HandsOnly.refl (s : State) : HandsOnly s s :=
  ⟨rfl, rfl, rfl, rfl, rfl, rfl, rfl, rfl, rfl, fun _ _ h => h, fun _ _ h => h, fun _ _ _ => rfl⟩

theorem HandsOnly.trans {s t u : State} (h : HandsOnly s t) (k : HandsOnly t u) : HandsOnly s u where
  power := k.power.trans h.power
  time := k.time.trans h.time
  inlet := k.inlet.trans h.inlet
  channels := k.channels.trans h.channels
  groups := k.groups.trans h.groups
  profiles := k.profiles.trans h.profiles
  link := k.link.trans h.link
  mgmt := k.mgmt.trans h.mgmt
  pending := k.pending.trans h.pending
  events I hI hs := k.events I hI (h.events I hI hs)
  alert I hI hs := k.alert I hI (h.alert I hI hs)
  counts j h1 h2 := (k.counts j h1 h2).trans (h.counts j h1 h2)

theorem HandsOnly.chan {s t : State} (h : HandsOnly s t) (c : ChanNo) : t.chan c = s.chan c :=
  State.chan_congr h.channels c

theorem handsOnly_raise (s : State) {k : GlobalCounter} (hk : k = .recordsCreated ∨ k = .heldDiscards) :
    HandsOnly s (s.raise k) :=
  ⟨rfl, rfl, rfl, rfl, rfl, rfl, rfl, rfl, rfl, fun _ _ h => h, fun _ _ h => h, fun j h1 h2 =>
    CounterBank.get_raiseBy_other _ _ (by rcases hk with h | h <;> simp_all)⟩

theorem handsOnly_raiseWindows (s : State) (c : ChanNo) (f : WindowCounts → WindowCounts) :
    HandsOnly s (s.raiseWindows c f) :=
  ⟨rfl, rfl, rfl, rfl, rfl, rfl, rfl, rfl, rfl, fun _ _ h => h, fun _ _ h => h, fun _ _ _ => rfl⟩

theorem handsOnly_report (s : State) (x : Cause) : HandsOnly s (s.report x) :=
  ⟨rfl, rfl, rfl, rfl, rfl, rfl, rfl, rfl, rfl, fun _ _ h => h, fun _ hI h => hI _ _ h, fun _ _ _ => rfl⟩

theorem handsOnly_enterRecord (s : State) (r : Record) : HandsOnly s (s.enterRecord r) := by
  unfold State.enterRecord
  have base : HandsOnly s { s with events := s.events.enter r } :=
    ⟨rfl, rfl, rfl, rfl, rfl, rfl, rfl, rfl, rfl, fun _ hI h => hI _ _ h, fun _ _ h => h, fun _ _ _ => rfl⟩
  dsimp only
  split
  · exact (base.trans (handsOnly_raise _ (.inr rfl))).trans (handsOnly_report _ _)
  · exact base

/-- Handing a record changes nothing but the events, the alert and the counters (R102, R104, R109). -/
theorem handsOnly_hand (s : State) (c : ChanNo) (k : RecordKind) : HandsOnly s (s.hand c k) := by
  unfold State.hand
  dsimp only
  split
  · exact ((handsOnly_raise s (.inl rfl)).trans (handsOnly_report _ _)).trans (handsOnly_enterRecord _ _)
  · exact (handsOnly_raise s (.inl rfl)).trans (handsOnly_enterRecord _ _)

section
variable (s : State) (c : ChanNo) (k : RecordKind)
@[simp] theorem State.hand_power : (s.hand c k).power = s.power := (handsOnly_hand s c k).power
@[simp] theorem State.hand_time : (s.hand c k).time = s.time := (handsOnly_hand s c k).time
@[simp] theorem State.hand_inlet : (s.hand c k).inlet = s.inlet := (handsOnly_hand s c k).inlet
@[simp] theorem State.hand_channels : (s.hand c k).channels = s.channels := (handsOnly_hand s c k).channels
@[simp] theorem State.hand_groups : (s.hand c k).groups = s.groups := (handsOnly_hand s c k).groups
@[simp] theorem State.hand_profiles : (s.hand c k).profiles = s.profiles := (handsOnly_hand s c k).profiles
@[simp] theorem State.hand_link : (s.hand c k).link = s.link := (handsOnly_hand s c k).link
@[simp] theorem State.hand_mgmt : (s.hand c k).mgmt = s.mgmt := (handsOnly_hand s c k).mgmt
@[simp] theorem State.hand_pending : (s.hand c k).pending = s.pending := (handsOnly_hand s c k).pending
@[simp] theorem State.chan_hand (d : ChanNo) : (s.hand c k).chan d = s.chan d := (handsOnly_hand s c k).chan d
end

theorem State.enterRecord_events (s : State) (r : Record) : (s.enterRecord r).events = s.events.enter r := by
  unfold State.enterRecord
  dsimp only
  split <;> simp

/-- What handing a record makes of the events: the record, stamped with the tick, is entered (R102, R109). -/
theorem State.hand_events (s : State) (c : ChanNo) (k : RecordKind) :
    (s.hand c k).events = s.events.enter { kind := k, channel := c, time := s.time, loss := 0 } := by
  unfold State.hand
  dsimp only
  split <;> simp [State.enterRecord_events]

/-- The window counters are no part of the event path. -/
theorem State.hand_windows (s : State) (c : ChanNo) (k : RecordKind) :
    (s.hand c k).counters.windows = s.counters.windows := by
  unfold State.hand State.enterRecord
  dsimp only
  split <;> split <;> simp

/-- An appended record is the one just stamped; a handed record is counted as created (R102). -/
theorem State.hand_created (s : State) (c : ChanNo) (k : RecordKind) :
    (s.hand c k).counters.get .recordsCreated = satAdd (s.counters.get .recordsCreated) 1 := by
  unfold State.hand State.enterRecord
  dsimp only
  split <;> split <;> simp [CounterBank.get_raiseBy_other]

/-! ### Releases of staged values and deliveries (R120, R122) -/

/-- `t` differs from `s` at most in the events, the alert and the counters. -/
structure EventSide (s t : State) : Prop where
  power : t.power = s.power
  time : t.time = s.time
  inlet : t.inlet = s.inlet
  channels : t.channels = s.channels
  groups : t.groups = s.groups
  profiles : t.profiles = s.profiles
  link : t.link = s.link
  mgmt : t.mgmt = s.mgmt
  pending : t.pending = s.pending
  alert : ∀ I : Alert → Prop, (∀ a x, I a → I (a.report x)) → I s.alert → I t.alert

theorem EventSide.refl (s : State) : EventSide s s :=
  ⟨rfl, rfl, rfl, rfl, rfl, rfl, rfl, rfl, rfl, fun _ _ h => h⟩

theorem EventSide.trans {s t u : State} (h : EventSide s t) (k : EventSide t u) : EventSide s u where
  power := k.power.trans h.power
  time := k.time.trans h.time
  inlet := k.inlet.trans h.inlet
  channels := k.channels.trans h.channels
  groups := k.groups.trans h.groups
  profiles := k.profiles.trans h.profiles
  link := k.link.trans h.link
  mgmt := k.mgmt.trans h.mgmt
  pending := k.pending.trans h.pending
  alert I hI hs := k.alert I hI (h.alert I hI hs)

theorem HandsOnly.eventSide {s t : State} (h : HandsOnly s t) : EventSide s t :=
  ⟨h.power, h.time, h.inlet, h.channels, h.groups, h.profiles, h.link, h.mgmt, h.pending, h.alert⟩

theorem eventSide_raiseBy (s : State) (k : GlobalCounter) (n : Nat) : EventSide s (s.raiseBy k n) :=
  ⟨rfl, rfl, rfl, rfl, rfl, rfl, rfl, rfl, rfl, fun _ _ h => h⟩

theorem eventSide_setEvents (s : State) (e : Events) : EventSide s { s with events := e } :=
  ⟨rfl, rfl, rfl, rfl, rfl, rfl, rfl, rfl, rfl, fun _ _ h => h⟩

theorem eventSide_releaseStaged (s : State) (c : ChanNo) : EventSide s (s.releaseStaged c) := by
  unfold State.releaseStaged
  split
  · exact EventSide.refl s
  · exact (eventSide_setEvents s _).trans (handsOnly_enterRecord _ _).eventSide

theorem eventSide_recordDelivered (s : State) (r : Record) : EventSide s (s.recordDelivered r) := by
  unfold State.recordDelivered
  split
  · exact (eventSide_setEvents s _).trans (eventSide_releaseStaged _ _)
  · exact EventSide.refl s

theorem eventSide_foldl {α : Type} (f : State → α → State) (h : ∀ s a, EventSide s (f s a)) (l : List α) (s : State) :
    EventSide s (l.foldl f s) := by
  induction l generalizing s with
  | nil => exact EventSide.refl s
  | cons a l ih => exact (h s a).trans (ih _)

/-- The removal of acknowledged frames changes nothing but events, alert and counters on the Event Unit's side (R120). -/
theorem eventSide_framesDelivered (s : State) (frames : List EventFrame) : EventSide s (s.framesDelivered frames) :=
  eventSide_foldl _ eventSide_recordDelivered _ s

/-- A resync changes nothing but events, alert and counters on the Event Unit's side (R122). -/
theorem eventSide_resyncEvents (s : State) (frames : List EventFrame) : EventSide s (s.resyncEvents frames) := by
  unfold State.resyncEvents
  exact ((eventSide_raiseBy s _ _).trans (eventSide_setEvents _ _)).trans
    (eventSide_foldl _ eventSide_releaseStaged _ _)

@[simp] theorem Events.del_clearFlags (e : Events) (c : ChanNo) :
    e.clearFlags.del c = { e.del c with inFlight := false } := by
  simp [Events.del, Events.clearFlags]

/-! ### Taking records for a frame (R117, R118) -/

theorem Events.setFlags_queue (e : Events) (l : List Record) : (e.setFlags l).queue = e.queue := by
  unfold Events.setFlags
  induction l generalizing e with
  | nil => rfl
  | cons r l ih =>
    rw [List.foldl_cons, ih]
    split <;> rfl

theorem Events.setFlags_deferred (e : Events) (l : List Record) : (e.setFlags l).deferred = e.deferred := by
  unfold Events.setFlags
  induction l generalizing e with
  | nil => rfl
  | cons r l ih =>
    rw [List.foldl_cons, ih]
    split <;> rfl

/-- The head of the queue is at most a frame's worth of records (R117). -/
theorem Events.head_length_le (e : Events) : e.head.length ≤ Config.recordsPerFrame := by
  simp [Events.head]

end Sys2Proof.Machine
end

