-- ==== Sys2Proof/Laws/Channels.lean ====
section
/-! SUPPORT. What the operations of the Window Engine, Channel Logic and the Baseline Tracker can do to a state: each
changes its own channel's window and state part, group tiers, and what handing records changes; nothing else. -/

namespace Sys2Proof.Machine

/-- `t` differs from `s` at most in the window and state parts of channels in `P`, in group tiers, and in what handing
records changes. -/
structure ChannelSide (P : ChanNo → Prop) (s t : State) : Prop where
  power : t.power = s.power
  time : t.time = s.time
  inlet : t.inlet = s.inlet
  profiles : t.profiles = s.profiles
  link : t.link = s.link
  mgmt : t.mgmt = s.mgmt
  pending : t.pending = s.pending
  config : ∀ d, (t.chan d).config = (s.chan d).config
  others : ∀ d, ¬ P d → t.chan d = s.chan d
  members : ∀ g : Fin 8, t.groups[g].members = s.groups[g].members
  /-- What every entered record keeps is kept. -/
  events : ∀ I : Events → Prop, (∀ e r, I e → I (e.enter r)) → I s.events → I t.events
  /-- What every report keeps is kept. -/
  alert : ∀ I : Alert → Prop, (∀ a x, I a → I (a.report x)) → I s.alert → I t.alert
  /-- Of the global counters, only those of record entry can move. -/
  counts : ∀ k, k ≠ .recordsCreated → k ≠ .heldDiscards → t.counters.get k = s.counters.get k

section
variable {P : ChanNo → Prop}

theorem ChannelSide.refl (s : State) : ChannelSide P s s :=
  ⟨rfl, rfl, rfl, rfl, rfl, rfl, rfl, fun _ => rfl, fun _ _ => rfl, fun _ => rfl, fun _ _ h => h, fun _ _ h => h,
    fun _ _ _ => rfl⟩

theorem ChannelSide.trans {s t u : State} (h : ChannelSide P s t) (k : ChannelSide P t u) : ChannelSide P s u where
  power := k.power.trans h.power
  time := k.time.trans h.time
  inlet := k.inlet.trans h.inlet
  profiles := k.profiles.trans h.profiles
  link := k.link.trans h.link
  mgmt := k.mgmt.trans h.mgmt
  pending := k.pending.trans h.pending
  config d := (k.config d).trans (h.config d)
  others d hd := (k.others d hd).trans (h.others d hd)
  members g := (k.members g).trans (h.members g)
  events I hI hs := k.events I hI (h.events I hI hs)
  alert I hI hs := k.alert I hI (h.alert I hI hs)
  counts j h1 h2 := (k.counts j h1 h2).trans (h.counts j h1 h2)

theorem ChannelSide.mono {Q : ChanNo → Prop} {s t : State} (h : ChannelSide P s t) (hPQ : ∀ d, P d → Q d) :
    ChannelSide Q s t :=
  { h with others := fun d hd => h.others d fun hp => hd (hPQ d hp) }

theorem HandsOnly.channelSide {s t : State} (h : HandsOnly s t) : ChannelSide P s t where
  power := h.power
  time := h.time
  inlet := h.inlet
  profiles := h.profiles
  link := h.link
  mgmt := h.mgmt
  pending := h.pending
  config d := by rw [h.chan d]
  others d _ := h.chan d
  members g := by rw [h.groups]
  events := h.events
  alert := h.alert
  counts := h.counts

theorem channelSide_setChan (s : State) (c : ChanNo) (ch : Channel) (hP : P c) (hc : ch.config = (s.chan c).config) :
    ChannelSide P s (s.setChan c ch) where
  power := rfl
  time := rfl
  inlet := rfl
  profiles := rfl
  link := rfl
  mgmt := rfl
  pending := rfl
  config d := by
    by_cases h : d = c
    · rw [h, State.chan_setChan_same, hc]
    · rw [s.chan_setChan_other ch h]
  others d hd := s.chan_setChan_other ch fun h => hd (h ▸ hP)
  members _ := rfl
  events _ _ h := h
  alert _ _ h := h
  counts _ _ _ := rfl

theorem channelSide_modRun (s : State) (c : ChanNo) (f : RunPart → RunPart) (hP : P c) :
    ChannelSide P s (s.modRun c f) := channelSide_setChan s c _ hP rfl

theorem channelSide_modWindow (s : State) (c : ChanNo) (f : WindowPart → WindowPart) (hP : P c) :
    ChannelSide P s (s.modWindow c f) := channelSide_setChan s c _ hP rfl

theorem channelSide_hand (s : State) (c : ChanNo) (k : RecordKind) : ChannelSide P s (s.hand c k) :=
  (handsOnly_hand s c k).channelSide

theorem channelSide_foldl {α : Type} (f : State → α → State) (l : List α)
    (h : ∀ a ∈ l, ∀ s, ChannelSide P s (f s a)) (s : State) : ChannelSide P s (l.foldl f s) := by
  induction l generalizing s with
  | nil => exact ChannelSide.refl s
  | cons a l ih =>
    exact (h a (by simp) s).trans (ih (fun b hb => h b (by simp [hb])) _)

/-! ### Entries and results -/

variable (s : State) (c : ChanNo) (hP : P c)
include hP

theorem channelSide_enterIdle : ChannelSide P s (s.enterIdle c) := channelSide_modRun s c _ hP

theorem channelSide_forgetMean : ChannelSide P s (s.forgetMean c) := channelSide_modWindow s c _ hP

theorem channelSide_enterSettling (cause : CaptureCause) : ChannelSide P s (s.enterSettling c cause) :=
  (channelSide_modRun s c _ hP).trans (channelSide_forgetMean _ c hP)

theorem channelSide_enterOff : ChannelSide P s (s.enterOff c) :=
  (channelSide_modRun s c _ hP).trans (channelSide_forgetMean _ c hP)

theorem channelSide_abandon : ChannelSide P s (s.abandon c) := by
  unfold State.abandon
  split
  · exact ChannelSide.refl s
  · exact (channelSide_modWindow s c _ hP).trans (handsOnly_raiseWindows _ _ _).channelSide

theorem channelSide_endEngagement (reason : ReleaseReason) : ChannelSide P s (s.endEngagement c reason) := by
  unfold State.endEngagement
  split
  · exact (channelSide_hand s c _).trans (channelSide_modRun _ c _ hP)
  · exact ChannelSide.refl s

theorem channelSide_capture (mean : Nat) : ChannelSide P s (s.capture c mean) :=
  (channelSide_modRun s c _ hP).trans (channelSide_hand _ c _)

theorem channelSide_onset (p : Profile) (mean b : Nat) : ChannelSide P s (s.onset c p mean b) :=
  (channelSide_hand s c _).trans (channelSide_modRun _ c _ hP)

theorem channelSide_confirmOnset (p : Profile) (mean b n : Nat) : ChannelSide P s (s.confirmOnset c p mean b n) := by
  unfold State.confirmOnset
  split
  · exact channelSide_onset s c hP p mean b
  · exact channelSide_modRun s c _ hP

theorem channelSide_releaseNormal (mean : Nat) : ChannelSide P s (s.releaseNormal c mean) :=
  ((channelSide_hand s c _).trans (channelSide_modRun _ c _ hP)).trans (channelSide_enterIdle _ c hP)

theorem channelSide_leaveNoisy (p : Profile) (mean : Nat) : ChannelSide P s (s.leaveNoisy c p mean) := by
  unfold State.leaveNoisy
  dsimp only
  split
  · exact (channelSide_capture s c hP mean).trans (channelSide_enterIdle _ c hP)
  · split
    · split
      · exact channelSide_releaseNormal s c hP mean
      · exact channelSide_modRun s c _ hP
    · split
      · exact channelSide_confirmOnset s c hP p mean _ 1
      · exact channelSide_enterIdle s c hP

theorem channelSide_acceptedMove (p : Profile) (mean : Nat) : ChannelSide P s (s.acceptedMove c p mean) := by
  unfold State.acceptedMove
  dsimp only
  split
  · exact (channelSide_capture s c hP mean).trans (channelSide_enterIdle _ c hP)
  · split
    · exact channelSide_confirmOnset s c hP p mean _ 1
    · exact ChannelSide.refl s
  · split
    · exact channelSide_confirmOnset s c hP p mean _ _
    · exact channelSide_enterIdle s c hP
  · split
    · exact channelSide_releaseNormal s c hP mean
    · exact ChannelSide.refl s
  · exact (channelSide_hand s c _).trans (channelSide_leaveNoisy _ c hP p mean)
  all_goals exact ChannelSide.refl s

theorem channelSide_takeAccepted (p : Profile) (mean : Nat) (tier : Tier) :
    ChannelSide P s (s.takeAccepted c p mean tier) := by
  unfold State.takeAccepted
  dsimp only
  split
  · exact ((channelSide_acceptedMove s c hP p mean).trans (channelSide_hand _ c _)).trans (channelSide_modRun _ c _ hP)
  · exact channelSide_acceptedMove s c hP p mean

theorem channelSide_takeRejected (p : Profile) (spread : Nat) : ChannelSide P s (s.takeRejected c p spread) := by
  unfold State.takeRejected
  dsimp only
  have noisy : ChannelSide P s
      ((s.hand c (.noisy spread)).modRun c fun r => { r with state := .noisy, confirm := 0, quiet := none }) :=
    (channelSide_hand s c _).trans (channelSide_modRun _ c _ hP)
  have rest : ∀ b : Prop, ∀ _ : Decidable b, ChannelSide P s (if b then s.enterIdle c else s) := fun b _ => by
    split
    · exact channelSide_enterIdle s c hP
    · exact ChannelSide.refl s
  split
  all_goals first
    | exact ChannelSide.refl s
    | (by_cases h : p.rejectLimit ≤ (s.chan c).run.rejectRun
       · rw [if_pos h]; exact noisy
       · rw [if_neg h]; exact rest _ _)

/-! ### Windows -/

omit hP in
theorem channelSide_setTier (g : Fin 8) (tier : Tier) :
    ChannelSide P s { s with groups := s.groups.set g { s.groups[g] with tier := tier } } where
  power := rfl
  time := rfl
  inlet := rfl
  profiles := rfl
  link := rfl
  mgmt := rfl
  pending := rfl
  config _ := rfl
  others _ _ := rfl
  members k := by
    by_cases h : g.val = k.val
    · simp [h]
    · simp [Vector.getElem_set_ne, h]
  events _ _ h := h
  alert _ _ h := h
  counts _ _ _ := rfl

theorem channelSide_selectTier (p : Profile) (rate : Nat) : ChannelSide P s (s.selectTier c p rate) := by
  unfold State.selectTier
  split
  · exact ChannelSide.refl s
  · split
    · exact channelSide_modWindow s c _ hP
    · exact channelSide_setTier s _ _

theorem channelSide_acceptWindow (p : Profile) (mean : Nat) : ChannelSide P s (s.acceptWindow c p mean) :=
  ((((channelSide_modRun s c _ hP).trans (handsOnly_raiseWindows _ _ _).channelSide).trans
    (channelSide_modWindow _ c _ hP)).trans (channelSide_selectTier _ c hP p _)).trans
    (channelSide_takeAccepted _ c hP p mean _)

theorem channelSide_rejectWindow (p : Profile) (spread : Nat) : ChannelSide P s (s.rejectWindow c p spread) :=
  ((channelSide_modRun s c _ hP).trans (handsOnly_raiseWindows _ _ _).channelSide).trans
    (channelSide_takeRejected _ c hP p spread)

theorem channelSide_closeWindow (w : Window) : ChannelSide P s (s.closeWindow c w) := by
  unfold State.closeWindow
  dsimp only
  split
  · exact (channelSide_modWindow s c _ hP).trans (channelSide_rejectWindow _ c hP _ _)
  · exact (channelSide_modWindow s c _ hP).trans (channelSide_acceptWindow _ c hP _ _)

/-- A delivered sample changes its own channel, group tiers, and what handing records changes (R42). -/
theorem channelSide_deliverSample (x : Sample) : ChannelSide P s (s.deliverSample c x) := by
  unfold State.deliverSample
  dsimp only
  split
  · split
    · exact channelSide_modWindow s c _ hP
    · exact channelSide_closeWindow s c hP _
  · exact ChannelSide.refl s

/-! ### Route events, timers, REBASE -/

theorem channelSide_silenceEvent : ChannelSide P s (s.silenceEvent c) := by
  unfold State.silenceEvent
  split
  · exact (((channelSide_abandon s c hP).trans (channelSide_endEngagement _ c hP _)).trans
      (channelSide_hand _ c _)).trans (channelSide_modRun _ c _ hP)
  · exact ChannelSide.refl s

theorem channelSide_resumeEvent : ChannelSide P s (s.resumeEvent c) := by
  unfold State.resumeEvent
  dsimp only
  split
  · split
    · exact (channelSide_hand s c _).trans (channelSide_enterIdle _ c hP)
    · exact (channelSide_hand s c _).trans (channelSide_enterSettling _ c hP _)
  · exact ChannelSide.refl s

theorem channelSide_unrouteEvent : ChannelSide P s (s.unrouteEvent c) := by
  unfold State.unrouteEvent
  split
  · exact ((channelSide_abandon s c hP).trans (channelSide_endEngagement _ c hP _)).trans
      (channelSide_enterSettling _ c hP _)
  · exact ChannelSide.refl s

theorem channelSide_abandonRunning : ChannelSide P s (s.abandonRunning c) := by
  unfold State.abandonRunning
  split
  · exact channelSide_abandon s c hP
  · exact ChannelSide.refl s

theorem channelSide_driftStep : ChannelSide P s (s.driftStep c) := by
  unfold State.driftStep
  exact channelSide_modRun s c _ hP

theorem channelSide_stuckExpiry : ChannelSide P s (s.stuckExpiry c) :=
  (((channelSide_abandon s c hP).trans (channelSide_hand _ c _)).trans (channelSide_endEngagement _ c hP _)).trans
    (channelSide_enterSettling _ c hP _)

theorem channelSide_forceSettling : ChannelSide P s (s.forceSettling c) :=
  ((channelSide_abandon s c hP).trans (channelSide_endEngagement _ c hP _)).trans (channelSide_enterSettling _ c hP _)

theorem channelSide_applyModeChange (old new : ChannelConfig) : ChannelSide P s (s.applyModeChange c old new) := by
  unfold State.applyModeChange
  split
  · split
    · exact ChannelSide.refl s
    · exact channelSide_enterSettling s c hP _
  · split
    · exact ((channelSide_abandon s c hP).trans (channelSide_endEngagement _ c hP _)).trans (channelSide_enterOff _ c hP)
    · split
      · exact ((channelSide_abandon s c hP).trans (channelSide_endEngagement _ c hP _)).trans
          (channelSide_enterSettling _ c hP _)
      · exact ChannelSide.refl s

end

/-! ### A change of group (R12) -/

theorem State.changeGroup_same (s : State) (c : ChanNo) (g : Option (Fin 8)) : s.changeGroup c g g = s := by
  simp [State.changeGroup]

theorem State.changeGroup_join (s : State) (c : ChanNo) (h : Fin 8) :
    s.changeGroup c none (some h) = s.joinGroup h := by simp [State.changeGroup]

theorem State.changeGroup_leave (s : State) (c : ChanNo) (g : Fin 8) :
    s.changeGroup c (some g) none = s.leaveGroup c g := by simp [State.changeGroup]

theorem State.changeGroup_move (s : State) (c : ChanNo) {g h : Fin 8} (hgh : g ≠ h) :
    s.changeGroup c (some g) (some h) = (s.leaveGroup c g).joinGroup h := by simp [State.changeGroup, hgh]

/-- A change of group touches the channel's own tier and the Group Table only (R12). -/
theorem State.changeGroup_cases (s : State) (c : ChanNo) (old new : Option (Fin 8)) :
    ∃ (tier : Tier) (groups : Vector Group 8),
      s.changeGroup c old new = { s.modWindow c (fun w => { w with tier := tier }) with groups := groups } := by
  have self : s.modWindow c (fun w => { w with tier := (s.chan c).window.tier }) = s := by
    have e : s.channels.set c.val (s.chan c) = s.channels := Vector.set_getElem_self _
    show { s with channels := s.channels.set c.val (s.chan c) } = s
    rw [e]
  by_cases h : old = new
  · subst h
    exact ⟨(s.chan c).window.tier, s.groups, by rw [State.changeGroup_same, self]⟩
  · cases old with
    | none =>
      cases new with
      | none => exact absurd rfl h
      | some k =>
        refine ⟨(s.chan c).window.tier, (s.joinGroup k).groups, ?_⟩
        rw [State.changeGroup_join, self]
        rfl
    | some g =>
      cases new with
      | none => exact ⟨s.groups[g].tier, (s.leaveGroup c g).groups, by rw [State.changeGroup_leave]; rfl⟩
      | some k =>
        have hgk : g ≠ k := fun e => h (by rw [e])
        refine ⟨s.groups[g].tier, ((s.leaveGroup c g).joinGroup k).groups, ?_⟩
        rw [State.changeGroup_move s c hgk]
        rfl

/-- A set of configuration fields touches one channel, the Group Table and what handing records changes (R16). -/
theorem setConfig_frame (s : State) (c : ChanNo) (new : ChannelConfig) :
    (s.setConfig c new).power = s.power ∧ (s.setConfig c new).time = s.time ∧ (s.setConfig c new).inlet = s.inlet ∧
    (s.setConfig c new).profiles = s.profiles ∧ (s.setConfig c new).link = s.link ∧
    (s.setConfig c new).mgmt = s.mgmt ∧ (s.setConfig c new).pending = s.pending ∧
    ((s.setConfig c new).chan c).config = new ∧ ∀ d, d ≠ c → (s.setConfig c new).chan d = s.chan d := by
  unfold State.setConfig
  obtain ⟨tier, groups, hg⟩ :=
    (s.modConfig c fun _ => new).changeGroup_cases c (s.chan c).config.group new.group
  have hchan : ∀ d, ((s.modConfig c fun _ => new).changeGroup c (s.chan c).config.group new.group).chan d =
      ((s.modConfig c fun _ => new).modWindow c fun w => { w with tier := tier }).chan d := fun d => by rw [hg]; rfl
  have h := channelSide_applyModeChange (P := (· = c))
    ((s.modConfig c fun _ => new).changeGroup c (s.chan c).config.group new.group) c rfl (s.chan c).config new
  refine ⟨h.power.trans (by rw [hg]; rfl), h.time.trans (by rw [hg]; rfl), h.inlet.trans (by rw [hg]; rfl),
    h.profiles.trans (by rw [hg]; rfl), h.link.trans (by rw [hg]; rfl), h.mgmt.trans (by rw [hg]; rfl),
    h.pending.trans (by rw [hg]; rfl), ?_, ?_⟩
  · exact (h.config c).trans (by rw [hchan]; simp)
  · intro d hd
    exact (h.others d hd).trans (by
      rw [hchan, State.chan_modWindow_other _ _ hd, State.chan_modConfig_other _ _ hd])

/-! ### Whole frames -/

theorem channelSide_foldChannels (f : State → ChanNo → State) (l : List ChanNo)
    (h : ∀ s c, ChannelSide (· = c) s (f s c)) (s : State) : ChannelSide (· ∈ l) s (l.foldl f s) :=
  channelSide_foldl f l (fun a ha s => (h s a).mono fun _ hd => hd ▸ ha) s

/-- The windows abandoned at a gap are those of the route's channels (R25). -/
theorem channelSide_abandonRange (s : State) (r : Route) :
    ChannelSide (· ∈ r.range) s (r.range.foldl State.abandonRunning s) :=
  channelSide_foldChannels _ _ (fun s c => channelSide_abandonRunning s c rfl) s

/-- The samples of a frame change only the channels of their route (R27). -/
theorem channelSide_lanes (s : State) (r : Route) (samples : List Sample) :
    ChannelSide (· ∈ r.range) s ((r.range.zip samples).foldl (fun s lane => s.deliverSample lane.1 lane.2) s) :=
  channelSide_foldl _ _ (fun a ha s => channelSide_deliverSample s a.1 (List.of_mem_zip ha).1 a.2) s

/-- The channels of a silent route (R30). -/
theorem channelSide_silences (s : State) (r : Route) :
    ChannelSide (· ∈ r.range) s (r.range.foldl State.silenceEvent s) :=
  channelSide_foldChannels _ _ (fun s c => channelSide_silenceEvent s c rfl) s

/-- The channels of a resuming route (R31). -/
theorem channelSide_resumes (s : State) (r : Route) :
    ChannelSide (· ∈ r.range) s (r.range.foldl State.resumeEvent s) :=
  channelSide_foldChannels _ _ (fun s c => channelSide_resumeEvent s c rfl) s

/-- The unroute events of a swap change only channels, group tiers excepted (R39). -/
theorem channelSide_unroutes (s : State) (l : List ChanNo) : ChannelSide (· ∈ l) s (l.foldl State.unrouteEvent s) :=
  channelSide_foldChannels _ l (fun s c => channelSide_unrouteEvent s c rfl) s

/-! ### One channel after its event, and every channel after a route's events -/

section
variable (s : State) (c : ChanNo)

@[simp] theorem State.abandon_events : (s.abandon c).events = s.events := by
  unfold State.abandon
  split <;> rfl

@[simp] theorem State.abandon_alert : (s.abandon c).alert = s.alert := by
  unfold State.abandon
  split <;> rfl

@[simp] theorem State.abandon_time : (s.abandon c).time = s.time := by
  unfold State.abandon
  split <;> rfl

@[simp] theorem State.abandon_groups : (s.abandon c).groups = s.groups := by
  unfold State.abandon
  split <;> rfl

theorem State.chan_abandon :
    (s.abandon c).chan c = { s.chan c with window := { (s.chan c).window with openWin := none } } := by
  unfold State.abandon
  split
  · rename_i h
    cases hc : s.chan c with
    | mk config window run =>
      cases window
      simp_all
  · simp

@[simp] theorem State.endEngagement_groups (x : ReleaseReason) : (s.endEngagement c x).groups = s.groups := by
  unfold State.endEngagement
  split <;> simp

/-- The end of an engagement, on its own channel (R65). -/
theorem State.chan_endEngagement (x : ReleaseReason) :
    (s.endEngagement c x).chan c =
      if (s.chan c).run.engaged then
        { s.chan c with run := { (s.chan c).run with engaged := false, maxActive := none } }
      else s.chan c := by
  unfold State.endEngagement
  split <;> simp_all

theorem State.chan_enterSettling (cause : CaptureCause) :
    (s.enterSettling c cause).chan c =
      { s.chan c with
        run := { (s.chan c).run with state := .settling, engaged := false, confirm := 0, rejectRun := 0,
                                     baseline := none, cause := cause, maxActive := none, quiet := none }
        window := { (s.chan c).window with lastMean := none, lastRate := 0 } } := by
  simp [State.enterSettling, State.forgetMean]

theorem State.running_abandon : ((s.abandon c).chan c).running = (s.chan c).running := by
  simp [State.chan_abandon, Channel.running]

@[simp] theorem State.unrouteEvent_groups : (s.unrouteEvent c).groups = s.groups := by
  unfold State.unrouteEvent
  split <;> simp

@[simp] theorem State.silenceEvent_groups : (s.silenceEvent c).groups = s.groups := by
  unfold State.silenceEvent
  split <;> simp

/-- An unroute event, on its own channel (R83). -/
theorem State.chan_unrouteEvent :
    (s.unrouteEvent c).chan c =
      if (s.chan c).running then
        { s.chan c with
          run := { (s.chan c).run with state := .settling, engaged := false, confirm := 0, rejectRun := 0,
                                       baseline := none, cause := .settle, maxActive := none, quiet := none }
          window := { (s.chan c).window with openWin := none, lastMean := none, lastRate := 0 } }
      else s.chan c := by
  unfold State.unrouteEvent
  split
  · rw [State.chan_enterSettling, State.chan_endEngagement, State.chan_abandon]
    split <;> simp_all
  · simp_all

/-- A silence event, on its own channel (R81). -/
theorem State.chan_silenceEvent :
    (s.silenceEvent c).chan c =
      if (s.chan c).running then
        { s.chan c with
          run := { (s.chan c).run with
            state := .silent, engaged := false, confirm := 0, rejectRun := 0, quiet := none
            maxActive := if (s.chan c).run.engaged then none else (s.chan c).run.maxActive }
          window := { (s.chan c).window with openWin := none } }
      else s.chan c := by
  unfold State.silenceEvent
  split
  · rw [State.chan_modRun_same, State.chan_hand, State.chan_endEngagement, State.chan_abandon]
    by_cases h : (s.chan c).run.engaged <;> simp_all
  · simp_all

end

/-- Each channel of the list gets its own event, whatever the order; the others stand. -/
theorem chan_foldl_events (f : State → ChanNo → State) (g : Channel → Channel)
    (hf : ∀ s c, (f s c).chan c = g (s.chan c)) (ho : ∀ s c d, d ≠ c → (f s c).chan d = s.chan d) (l : List ChanNo)
    (hl : l.Nodup) (s : State) (d : ChanNo) :
    (l.foldl f s).chan d = if d ∈ l then g (s.chan d) else s.chan d := by
  induction l generalizing s with
  | nil => simp
  | cons c l ih =>
    rw [List.foldl_cons, ih (List.nodup_cons.mp hl).2]
    by_cases h : d = c
    · subst h
      simp [(List.nodup_cons.mp hl).1, hf]
    · simp [h, ho s c d h]

theorem allChannels_nodup : allChannels.Nodup := List.nodup_finRange 64

theorem range_nodup (r : Route) : r.range.Nodup := allChannels_nodup.filter _

theorem groups_foldl_unroute (l : List ChanNo) (s : State) : (l.foldl State.unrouteEvent s).groups = s.groups := by
  induction l generalizing s with
  | nil => rfl
  | cons c l ih => rw [List.foldl_cons, ih, State.unrouteEvent_groups]

theorem mem_range (r : Route) (c : ChanNo) : c ∈ r.range ↔ r.covers c = true := by simp [Route.range]

end Sys2Proof.Machine
end

