-- ==== Sys2Proof/Laws/Commands.lean ====
section
/-! SUPPORT. What the operations under the commands can do: power, the execution of a request, its completion, the
answers made at arrival, the acknowledgement, the swap of the banks, and the restart. -/

namespace Sys2Proof.Machine

/-! ### Power (R150) -/

theorem State.whileOn_running {s : State} (h : s.power = .running) (f : State → State) : s.whileOn f = f s := by
  simp [State.whileOn, h]

theorem State.whileOn_held {s : State} {cause : PowerCause} (h : s.power = .held cause) (f : State → State) :
    s.whileOn f = s := by simp [State.whileOn, h]

/-- What an effect keeps is kept whether or not a power reset holds the part. -/
theorem State.whileOn_keeps {P : State → Prop} {s : State} {f : State → State} (h : P s) (hf : P (f s)) :
    P (s.whileOn f) := by
  unfold State.whileOn
  split <;> assumption

/-- With the part running, what an effect keeps is kept. -/
theorem State.whileOn_keeps_running {P : State → Prop} {s : State} {f : State → State} (h : P s)
    (hf : s.power = .running → P (f s)) : P (s.whileOn f) := by
  unfold State.whileOn
  split
  · exact hf (by assumption)
  · exact h

/-! ### Execution (R161–R163) -/

/-- Which request may begin, and when (R161). -/
theorem State.executable_eq_some {s : State} {q : Request} :
    s.executable = some q ↔ s.inlet.swap = .none ∧ s.mgmt.responses.length < Config.responseCapacity ∧
      s.mgmt.requests.head? = some q := by
  unfold State.executable State.hasFreePlace State.reserved
  by_cases h : s.inlet.swap = .none
  · by_cases k : s.mgmt.responses.length < Config.responseCapacity <;> simp [h, k]
  · simp [h]

theorem State.executable_of_head {s : State} {q : Request} {rest : List Request} (hs : s.inlet.swap = .none)
    (hp : s.mgmt.responses.length < Config.responseCapacity) (hq : s.mgmt.requests = q :: rest) :
    s.executable = some q := State.executable_eq_some.mpr ⟨hs, hp, by simp [hq]⟩

/-- An execution: the owner's answer, then the completion (R162, R163). -/
theorem State.execute_of_executable {s : State} {q : Request} {is : Byte → Bool} (owner : State → List Byte → Answer)
    (h : s.executable = some q) (hq : is q.command = true) :
    s.execute is owner =
      (owner s q.params).state.complete (owner s q.params).status (owner s q.params).data := by
  simp [State.execute, h, hq]

/-- Without a head request of the row's command that may begin, no execution occurs. -/
theorem State.execute_of_not {s : State} {is : Byte → Bool} (owner : State → List Byte → Answer)
    (h : ∀ q, s.executable = some q → is q.command = false) : s.execute is owner = s := by
  unfold State.execute
  split
  · rename_i q hq
    simp [h q hq]
  · rfl

/-- What every owner's effect followed by a completion keeps, every execution row keeps. -/
theorem State.execute_keeps {P : State → Prop} {s : State} {is : Byte → Bool} {owner : State → List Byte → Answer}
    (h : P s)
    (ho : ∀ q, s.executable = some q → is q.command = true →
      P ((owner s q.params).state.complete (owner s q.params).status (owner s q.params).data)) :
    P (s.execute is owner) := by
  unfold State.execute
  split
  · split
    · exact ho _ (by assumption) (by assumption)
    · exact h
  · exact h

section
variable (s : State) (x : Status) (d : List Byte)
@[simp] theorem State.complete_power : (s.complete x d).power = s.power := by unfold State.complete; split <;> rfl
@[simp] theorem State.complete_time : (s.complete x d).time = s.time := by unfold State.complete; split <;> rfl
@[simp] theorem State.complete_inlet : (s.complete x d).inlet = s.inlet := by unfold State.complete; split <;> rfl
@[simp] theorem State.complete_channels : (s.complete x d).channels = s.channels := by
  unfold State.complete; split <;> rfl
@[simp] theorem State.complete_groups : (s.complete x d).groups = s.groups := by unfold State.complete; split <;> rfl
@[simp] theorem State.complete_profiles : (s.complete x d).profiles = s.profiles := by
  unfold State.complete; split <;> rfl
@[simp] theorem State.complete_events : (s.complete x d).events = s.events := by unfold State.complete; split <;> rfl
@[simp] theorem State.complete_link : (s.complete x d).link = s.link := by unfold State.complete; split <;> rfl
@[simp] theorem State.complete_alert : (s.complete x d).alert = s.alert := by unfold State.complete; split <;> rfl
@[simp] theorem State.complete_counters : (s.complete x d).counters = s.counters := by
  unfold State.complete; split <;> rfl
@[simp] theorem State.complete_pending : (s.complete x d).pending = s.pending := by
  unfold State.complete; split <;> rfl
@[simp] theorem State.chan_complete (c : ChanNo) : (s.complete x d).chan c = s.chan c :=
  State.chan_congr (State.complete_channels s x d) c
end

/-- A completion: the response joins the Response Queue, the head request leaves, the cache takes the entry (R163). -/
theorem State.complete_of_head {s : State} {q : Request} {rest : List Request} (h : s.mgmt.requests = q :: rest)
    (x : Status) (d : List Byte) :
    (s.complete x d).mgmt.requests = rest ∧
    (s.complete x d).mgmt.responses =
      s.mgmt.responses ++ [{ tag := q.tag, command := q.command, status := x, replayed := false, data := d }] := by
  simp [State.complete, h]

theorem State.complete_nil {s : State} (h : s.mgmt.requests = []) (x : Status) (d : List Byte) :
    s.complete x d = s := by simp [State.complete, h]

/-! ### Answers at arrival (R157–R160) -/

/-- An answer made at arrival touches the Response Queue and the counters only. -/
theorem State.answerAtArrival_cases (s : State) (r : Response) (k : Option GlobalCounter) :
    (s.hasFreePlace = true ∧
      ∃ b, s.answerAtArrival r k = { s.pushResponse r with counters := b }) ∨
    (s.hasFreePlace = false ∧ s.answerAtArrival r k = s.raise .discardedUnanswered) := by
  unfold State.answerAtArrival
  cases hp : s.hasFreePlace
  · simp
  · cases k <;> simp [State.raise, State.raiseBy]
    exact ⟨s.counters, rfl⟩

section
variable (s : State) (r : Response) (k : Option GlobalCounter)
@[simp] theorem State.answerAtArrival_power : (s.answerAtArrival r k).power = s.power := by
  rcases s.answerAtArrival_cases r k with ⟨_, b, h⟩ | ⟨_, h⟩ <;> simp [h]
@[simp] theorem State.answerAtArrival_time : (s.answerAtArrival r k).time = s.time := by
  rcases s.answerAtArrival_cases r k with ⟨_, b, h⟩ | ⟨_, h⟩ <;> simp [h]
@[simp] theorem State.answerAtArrival_inlet : (s.answerAtArrival r k).inlet = s.inlet := by
  rcases s.answerAtArrival_cases r k with ⟨_, b, h⟩ | ⟨_, h⟩ <;> simp [h]
@[simp] theorem State.answerAtArrival_channels : (s.answerAtArrival r k).channels = s.channels := by
  rcases s.answerAtArrival_cases r k with ⟨_, b, h⟩ | ⟨_, h⟩ <;> simp [h]
@[simp] theorem State.answerAtArrival_groups : (s.answerAtArrival r k).groups = s.groups := by
  rcases s.answerAtArrival_cases r k with ⟨_, b, h⟩ | ⟨_, h⟩ <;> simp [h]
@[simp] theorem State.answerAtArrival_profiles : (s.answerAtArrival r k).profiles = s.profiles := by
  rcases s.answerAtArrival_cases r k with ⟨_, b, h⟩ | ⟨_, h⟩ <;> simp [h]
@[simp] theorem State.answerAtArrival_events : (s.answerAtArrival r k).events = s.events := by
  rcases s.answerAtArrival_cases r k with ⟨_, b, h⟩ | ⟨_, h⟩ <;> simp [h]
@[simp] theorem State.answerAtArrival_link : (s.answerAtArrival r k).link = s.link := by
  rcases s.answerAtArrival_cases r k with ⟨_, b, h⟩ | ⟨_, h⟩ <;> simp [h]
@[simp] theorem State.answerAtArrival_alert : (s.answerAtArrival r k).alert = s.alert := by
  rcases s.answerAtArrival_cases r k with ⟨_, b, h⟩ | ⟨_, h⟩ <;> simp [h]
@[simp] theorem State.answerAtArrival_pending : (s.answerAtArrival r k).pending = s.pending := by
  rcases s.answerAtArrival_cases r k with ⟨_, b, h⟩ | ⟨_, h⟩ <;> simp [h]
@[simp] theorem State.answerAtArrival_requests : (s.answerAtArrival r k).mgmt.requests = s.mgmt.requests := by
  rcases s.answerAtArrival_cases r k with ⟨_, b, h⟩ | ⟨_, h⟩ <;> simp [h]
@[simp] theorem State.answerAtArrival_cache : (s.answerAtArrival r k).mgmt.cache = s.mgmt.cache := by
  rcases s.answerAtArrival_cases r k with ⟨_, b, h⟩ | ⟨_, h⟩ <;> simp [h]
end

/-! ### Acknowledgement (R136, R137) -/

/-- An acknowledge number touches the link's buffer and round, and what the Event Unit delivers (R136). -/
theorem eventSide_applyAck (s : State) (ack : BitVec 6) :
    EventSide (s.modLink (·.dropAcked (ackedCount s.link.replay ack))) (s.applyAck ack) :=
  eventSide_framesDelivered _ _

theorem enterRecord_modLink (s : State) (f : Link → Link) (r : Record) :
    (s.modLink f).enterRecord r = (s.enterRecord r).modLink f := by
  unfold State.enterRecord
  by_cases h : s.events.entryCase r = .discard
  · have h' : (s.modLink f).events.entryCase r = .discard := h
    rw [if_pos h, if_pos h']
    rfl
  · have h' : (s.modLink f).events.entryCase r ≠ .discard := h
    rw [if_neg h, if_neg h']
    rfl

theorem releaseStaged_modLink (s : State) (f : Link → Link) (c : ChanNo) :
    (s.modLink f).releaseStaged c = (s.releaseStaged c).modLink f := by
  unfold State.releaseStaged
  dsimp only [State.modLink_events]
  split
  · rfl
  · exact enterRecord_modLink { s with events := s.events.setDel c { s.events.del c with staged := none } } f _

theorem recordDelivered_modLink (s : State) (f : Link → Link) (r : Record) :
    (s.modLink f).recordDelivered r = (s.recordDelivered r).modLink f := by
  unfold State.recordDelivered
  split
  · exact releaseStaged_modLink
      { s with events := s.events.setDel r.channel { s.events.del r.channel with inFlight := false } } f r.channel
  · rfl

/-- What the Event Unit does with removed frames does not look at the link (R120). -/
theorem framesDelivered_modLink (s : State) (f : Link → Link) (frames : List EventFrame) :
    (s.modLink f).framesDelivered frames = (s.framesDelivered frames).modLink f := by
  unfold State.framesDelivered
  induction frames.flatMap (·.records) generalizing s with
  | nil => rfl
  | cons r l ih => rw [List.foldl_cons, recordDelivered_modLink, ih, List.foldl_cons]

/-- What the Event Unit does at a resync does not look at the link (R122). -/
theorem resyncEvents_modLink (s : State) (f : Link → Link) (frames : List EventFrame) :
    (s.modLink f).resyncEvents frames = (s.resyncEvents frames).modLink f := by
  have h : ∀ (l : List ChanNo) (s : State),
      l.foldl State.releaseStaged (s.modLink f) = (l.foldl State.releaseStaged s).modLink f := by
    intro l
    induction l with
    | nil => intro s; rfl
    | cons c l ih => intro s; rw [List.foldl_cons, releaseStaged_modLink, ih, List.foldl_cons]
  unfold State.resyncEvents
  dsimp only
  rw [← h]
  rfl

/-- A number that names no buffered frame removes nothing and delivers nothing (R137). -/
theorem ackedCount_eq_zero {l : List EventFrame} {ack : BitVec 6} (h : ∀ f ∈ l, f.seq ≠ ack) : ackedCount l ack = 0 := by
  unfold ackedCount
  have : l.findIdx? (·.seq == ack) = none := by simpa [List.findIdx?_eq_none_iff] using h
  simp [this]

theorem ackedCount_le (l : List EventFrame) (ack : BitVec 6) : ackedCount l ack ≤ l.length := by
  unfold ackedCount
  split
  · rename_i i h
    have := (List.findIdx?_eq_some_iff_getElem.mp h).1
    omega
  · omega

/-! ### The bank swap (R38, R39) -/

/-- A taken swap exchanges the banks; the rest is unroute events (R38, R39). -/
theorem channelSide_takeSwap (s : State) : ChannelSide (fun _ => True) (s.modInlet Inlet.exchange) s.takeSwap :=
  (channelSide_unroutes _ _).mono fun _ _ => trivial

@[simp] theorem State.takeSwap_inlet (s : State) : s.takeSwap.inlet = s.inlet.exchange := (channelSide_takeSwap s).inlet

@[simp] theorem State.takeSwap_mgmt (s : State) : s.takeSwap.mgmt = s.mgmt := (channelSide_takeSwap s).mgmt

@[simp] theorem Inlet.exchange_shadow (i : Inlet) : i.exchange.shadow = i.active.map (·.route) := rfl

/-- The configuration fields of the new active bank are the old shadow bank (R38). -/
@[simp] theorem Inlet.exchange_active (i : Inlet) : i.exchange.active.map (·.route) = i.shadow := by
  simp [Inlet.exchange, Function.comp_def]

/-! ### Restart (R172–R174) -/

@[simp] theorem State.chan_restart (s : State) (tag : Byte) (c : ChanNo) : (s.restart tag).chan c = (s.chan c).restart := by
  simp [State.chan, State.restart]

theorem Events.del_initial (c : ChanNo) : Events.initial.del c = .initial := by simp [Events.del, Events.initial]

end Sys2Proof.Machine
end

