-- ==== Sys2Proof/Laws/Line.lean ====
section
/-! SUPPORT. What the receivers read from the bytes of a link (R19, R187): every frame laid out as R187 gives, nothing from one
cut short, and well-formed commands only. -/

namespace Sys2Proof.Machine

/-! ### Bytes of a link into frames (R19, R187) -/

theorem Receiver.events_cons (r : Receiver) (b : Byte) (rest : List Byte) :
    r.events (b :: rest) = (r.takeByte b).2.toList ++ (r.takeByte b).1.events rest := rfl

/-- The payload and the CRC complete the frame. -/
theorem Receiver.events_payload (kind : Byte) (payload before rest : List Byte) (high low : Byte) :
    (Receiver.awaitPayload kind payload.length before).events (payload ++ high :: low :: rest) =
      .frame { kind := kind, payload := before ++ payload, crc := word16 high low } ::
        (Receiver.hunting false).events rest := by
  induction payload generalizing before with
  | nil => simp [Receiver.awaitPayload, Receiver.events, Receiver.takeByte]
  | cons b payload ih =>
    have h := ih (before ++ [b])
    simp only [List.append_assoc, List.singleton_append] at h
    rw [← h]
    simp [Receiver.awaitPayload, Receiver.events, Receiver.takeByte]

/-- Fewer bytes complete nothing. -/
theorem Receiver.events_cut (kind : Byte) (more : List Byte) : ∀ (left : Nat) (before : List Byte),
    more.length < left + 2 → (Receiver.awaitPayload kind left before).events more = [] := by
  induction more with
  | nil => exact fun _ _ _ => rfl
  | cons b more ih =>
    intro left before h
    cases left with
    | zero =>
      cases more with
      | nil => rfl
      | cons c more => simp at h; 
    | succ n =>
      have := ih n (before ++ [b]) (by simpa using h)
      simpa [Receiver.awaitPayload, Receiver.events, Receiver.takeByte] using this

theorem twoBytes_word16 (w : BitVec 16) : ∃ high low, twoBytes w.toNat = [high, low] ∧ word16 high low = w := by
  refine ⟨_, _, rfl, ?_⟩
  apply BitVec.eq_of_toNat_eq
  have := w.isLt
  rw [word16, BitVec.toNat_append, ← Nat.shiftLeft_add_eq_or_of_lt (BitVec.isLt _)]
  simp [Nat.shiftLeft_eq]
  omega

/-- A link's bytes are read as R19 and R187 give, whatever command each event is. -/
theorem readsLine_events (command : LineEvent → Instr) :
    readsLine (fun bytes => ((Receiver.hunting false).events bytes).map command) (command .syncPair)
      fun f => command (.frame f) := by
  have hfirst : ∀ b : Byte, b ≠ 0xC3 → (b == 195#8) = false := fun b h => beq_eq_false_iff_ne.mpr h
  refine ⟨rfl, rfl, ?_, ?_, ?_, ?_, ?_⟩
  · intro b rest h
    simp [Receiver.events, Receiver.takeByte, hfirst b h]
  · intro rest
    simp [Receiver.events, Receiver.takeByte]
  · intro b rest h h'
    have h2 : ¬ b = 60#8 := h'
    simp [Receiver.events, Receiver.takeByte, h2, hfirst b h]
  · intro f rest hl
    obtain ⟨high, low, hc, hw⟩ := twoBytes_word16 f.crc
    have hn : (BitVec.ofNat 8 f.payload.length).toNat = f.payload.length := by simp; omega
    have h := Receiver.events_payload f.kind f.payload [] rest high low
    simp only [List.nil_append, hw] at h
    simp only [lineBytes, hc, List.cons_append, List.nil_append, List.append_assoc]
    simp [Receiver.events, Receiver.takeByte, hn, h]
  · rintro tail (h | ⟨kind, length, more, rfl, h⟩)
    · match tail, h with
      | [], _ => rfl
      | [k], _ => rfl
    · have := Receiver.events_cut kind more length.toNat [] h
      simp [Receiver.events, Receiver.takeByte, this]

/-- Every frame read can be spelled on a link: its payload is as long as its length byte says. -/
def Receiver.bounded : Receiver → Prop
  | .atPayload _ left read => 1 ≤ left ∧ read.length + left ≤ 255
  | .atCrcHigh _ payload | .atCrcLow _ payload _ => payload.length ≤ 255
  | .hunting _ | .atKind | .atLength _ => True

theorem Receiver.bounded_await {kind : Byte} {left : Nat} {read : List Byte} (h : read.length + left ≤ 255) :
    (Receiver.awaitPayload kind left read).bounded := by
  unfold Receiver.awaitPayload
  split
  · show read.length ≤ 255
    omega
  · exact ⟨by omega, h⟩

theorem Receiver.events_spellable (bytes : List Byte) : ∀ r : Receiver, r.bounded →
    ∀ f, LineEvent.frame f ∈ r.events bytes → f.spellable = true := by
  induction bytes with
  | nil => intro r _ f h; cases h
  | cons b rest ih =>
    intro r hr f h
    rw [Receiver.events_cons, List.mem_append] at h
    rcases h with h | h
    · cases r with
      | hunting first => simp only [Receiver.takeByte] at h; split at h <;> simp at h
      | atCrcLow kind payload high =>
        simp only [Receiver.takeByte, Option.toList, List.mem_singleton, LineEvent.frame.injEq] at h
        subst h
        exact decide_eq_true hr
      | _ => simp [Receiver.takeByte] at h
    · refine ih _ ?_ f h
      cases r with
      | hunting first => simp only [Receiver.takeByte]; split <;> exact trivial
      | atKind => exact trivial
      | atLength kind =>
        have := b.isLt
        exact Receiver.bounded_await (by simp; omega)
      | atPayload kind left read =>
        refine Receiver.bounded_await ?_
        have hr : 1 ≤ left ∧ read.length + left ≤ 255 := hr
        simp
        omega
      | atCrcHigh kind payload => exact hr
      | atCrcLow kind payload high => exact trivial

theorem inletCommands_wellFormed {bytes : List Byte} {i : Instr} (h : i ∈ inletCommands bytes) : i.wellFormed = true := by
  obtain ⟨e, he, rfl⟩ := List.mem_map.mp h
  cases e with
  | syncPair => rfl
  | frame f => exact Receiver.events_spellable bytes (.hunting false) trivial f he

theorem inboundCommands_wellFormed {bytes : List Byte} {i : Instr} (h : i ∈ inboundCommands bytes) :
    i.wellFormed = true := by
  obtain ⟨e, he, rfl⟩ := List.mem_map.mp h
  cases e with
  | syncPair => rfl
  | frame f =>
    have hs := Receiver.events_spellable bytes (.hunting false) trivial f he
    unfold LineEvent.inboundCommand
    dsimp only
    split <;> simp_all [Instr.wellFormed]

end Sys2Proof.Machine
end

