-- ==== Sys2Proof/Laws/Step.lean ====
section
/-! SUPPORT. The step, case by case, and a way to prove that every step keeps a property. -/

namespace Sys2Proof.Machine

theorem step_cons {s : State} {c : Instr} {rest : List Instr} (h : s.pending = c :: rest) :
    step s = exec c { s with pending := rest } := by simp [step, h]

theorem step_nil {s : State} (h : s.pending = []) : step s = .next s := by simp [step, h]

/-! ### Executions, in the words of the statements -/

/-- A completion answers the head request (R163). -/
theorem State.complete_eq_answered {s : State} {q : Request} {rest : List Request} (h : s.mgmt.requests = q :: rest)
    (x : Status) (d : List Byte) : s.complete x d = s.answered q rest x d := by
  unfold State.complete State.answered Mgmt.answered
  rw [h]
  simp only [Config.cacheCapacity, List.length_append, List.length_singleton]
  by_cases hc : s.mgmt.cache.length < 8
  · rw [if_pos hc, if_neg (by omega)]
  · rw [if_neg hc, if_pos (by omega), List.drop_append_of_le_length (by omega)]

theorem State.executable_of_ready {s : State} {q : Request} {rest : List Request} (h : s.ready q rest) :
    s.executable = some q := State.executable_of_head h.2.1 h.2.2.1 h.2.2.2

/-- An execution row whose command the ready head request names: the owner's answer, then the completion (R161–R163). -/
theorem State.execute_of_ready {s : State} {q : Request} {rest : List Request} (h : s.ready q rest) {is : Byte → Bool}
    (owner : State → List Byte → Answer) (hq : is q.command = true) :
    s.whileOn (·.execute is owner) =
      (owner s q.params).state.complete (owner s q.params).status (owner s q.params).data := by
  rw [State.whileOn_running h.1, State.execute_of_executable owner (State.executable_of_ready h) hq]

/-- A refusal answers the head request and changes nothing else (R153). -/
theorem State.complete_refuse {s : State} {q : Request} {rest : List Request} (h : s.mgmt.requests = q :: rest)
    (x : Status) :
    (s.refuse x).state.complete (s.refuse x).status (s.refuse x).data = s.answered q rest x [] :=
  State.complete_eq_answered h x []

/-- A property that says nothing of the queue is kept by every step when every command keeps it. -/
theorem step_keeps {P : State → Prop} (hq : ∀ s l, P s → P { s with pending := l })
    (he : ∀ i s t, P s → exec i s = .next t → P t) {s t : State} (hs : P s) (h : step s = .next t) : P t := by
  unfold step at h
  split at h
  · cases h
    exact hs
  · exact he _ _ _ (hq _ _ hs) h

end Sys2Proof.Machine
end

