-- ==== Sys2Proof/Laws/Words.lean ====
section
/-! SUPPORT. The words of the statements (Safety) in terms of the model's operations. -/

namespace Sys2Proof.Machine

/-! ### Bytes (R186, R192) -/

theorem be16_eq_twoBytes (w : BitVec 16) : be16 w = twoBytes w.toNat := by
  have h := w.isLt
  simp only [be16, twoBytes, List.cons.injEq, and_true]
  constructor <;> (apply BitVec.eq_of_toNat_eq; simp [BitVec.extractLsb'_toNat, Nat.shiftRight_eq_div_pow])

theorem wordOf_eq_twoBytes (n : Nat) : wordOf n = twoBytes n := by
  simp only [wordOf, be16, twoBytes, List.cons.injEq, and_true]
  constructor
  · apply BitVec.eq_of_toNat_eq
    simp [BitVec.extractLsb'_toNat, Nat.shiftRight_eq_div_pow]
    omega
  · apply BitVec.eq_of_toNat_eq
    simp [BitVec.extractLsb'_toNat]

theorem flagByte_eq_bits8 : ∀ b0 b1 b2 b3 b4 b5 b6 : Bool,
    flagByte [b0, b1, b2, b3, b4, b5, b6] = bits8 false b6 b5 b4 b3 b2 b1 b0 := by decide +kernel

theorem flagByte4_eq_bits8 : ∀ b0 b1 b2 b3 : Bool,
    flagByte [b0, b1, b2, b3] = bits8 false false false false b3 b2 b1 b0 := by decide +kernel

theorem flagByte1_eq_bits8 : ∀ b0 : Bool,
    flagByte [b0] = bits8 false false false false false false false b0 := by decide +kernel

theorem State.countersData_channel (s : State) (c : ChanNo) : s.countersData (.channel c) = s.windowBytes c := by
  simp [State.countersData, State.windowBytes, be16_eq_twoBytes]

theorem State.snapshot_eq (s : State) (c : ChanNo) : s.snapshot c = s.channelBytes c := by
  simp only [State.snapshot, State.channelBytes, snapshotFlags, flagByte_eq_bits8, wordOf_eq_twoBytes, be16_eq_twoBytes,
    State.windowBytes, State.tierInUse, State.profileOf, byteOf, List.append_assoc]
  cases (s.chan c).config.mode <;> cases (s.chan c).config.polarity <;> cases (s.chan c).config.group <;>
    cases (s.chan c).run.state <;> cases (s.chan c).window.openWin <;> rfl

theorem activeEntry_eq (a : ActiveRoute) : activeEntry a = routeBytes a.route (some a.track) := by
  simp [activeEntry, routeBytes, flagByte4_eq_bits8, wordOf_eq_twoBytes, byteOf]

theorem shadowEntry_eq (r : Route) : shadowEntry r = routeBytes r none := by
  simp [shadowEntry, routeBytes, flagByte1_eq_bits8, wordOf_eq_twoBytes, byteOf]
  decide

theorem State.countersData_global (s : State) :
    s.countersData .global = tableOrder.flatMap fun k => twoBytes (s.counters.get k).toNat := by
  have h : s.counters.global.toList = tableOrder.map s.counters.get := by
    apply List.ext_getElem
    · simp [tableOrder]
    · intro i h1 h2
      simp only [Vector.getElem_toList, List.getElem_map, CounterBank.get]
      have hi : i < 18 := by simpa using h1
      interval_cases i <;> rfl
  simp [State.countersData, h, List.flatMap_map, be16_eq_twoBytes]

/-! ### Record entry (R109, R113) -/

/-- A record that none of cases 1 to 3 takes falls under cases 4 to 6 (R109). -/
theorem Events.entryCase_of_passes {e : Events} {r : Record} (h : e.passes r) : e.entryCase r = e.lateCase r.channel := by
  by_cases hv : r.isValue = true
  · obtain ⟨h1, h2, h3⟩ := h hv
    unfold Events.entryCase
    split
    · have a1 : e.queue.any (Record.isValueOf r.channel) = false := by simpa using h1
      have a2 : (e.del r.channel).held.any (Record.isValueOf r.channel) = false := by simpa using h2
      simp [a1, a2, h3]
    · rfl
  · exact Events.entryCase_of_not_value (by simpa using hv)

theorem Events.entryCase_discard {e : Events} {r : Record} : e.entryCase r = .discard ↔ e.discards r := by
  constructor
  · intro h
    have hp : e.passes r := by
      intro hv
      unfold Events.entryCase at h
      split at h
      · by_cases h1 : e.queue.any (Record.isValueOf r.channel)
        · simp [h1] at h
        · by_cases h2 : (e.del r.channel).held.any (Record.isValueOf r.channel)
          · simp [h1, h2] at h
          · by_cases h3 : (e.del r.channel).inFlight
            · simp [h1, h2, h3] at h
            · exact ⟨by simpa using h1, by simpa using h2, by simpa using h3⟩
      · rename_i hk
        unfold Record.isValue at hv
        split at hv
        · exact absurd (by assumption) (hk _ _)
        · cases hv
    refine ⟨?_, hp⟩
    rw [Events.entryCase_of_passes hp] at h
    unfold Events.lateCase at h
    split at h
    · split at h
      · cases h
      · rename_i hl
        exact Nat.not_lt.mp hl
    · split at h <;> cases h
  · intro ⟨h, hp⟩
    rw [Events.entryCase_of_passes hp]
    unfold Events.lateCase
    rw [if_pos (fun e0 => by simp [e0] at h), if_neg (by simp [Config.heldCapacity]; omega)]

/-! ### Staged values (R120, R122) -/

theorem State.releaseStaged_events (s : State) (c : ChanNo) : (s.releaseStaged c).events = s.events.unstage c := by
  unfold State.releaseStaged Events.unstage
  cases (s.events.del c).staged with
  | none => rfl
  | some v => exact State.enterRecord_events _ _

theorem foldl_releaseStaged_events (l : List ChanNo) (s : State) :
    (l.foldl State.releaseStaged s).events = l.foldl Events.unstage s.events := by
  induction l generalizing s with
  | nil => rfl
  | cons c l ih => rw [List.foldl_cons, List.foldl_cons, ih, State.releaseStaged_events]

/-- The events after a resync: every flag cleared, then the staged values entered in ascending order (R122). -/
theorem State.resyncEvents_events (s : State) (frames : List EventFrame) :
    (s.resyncEvents frames).events = allChannels.foldl Events.unstage s.events.clearFlags :=
  foldl_releaseStaged_events _ _

/-! ### Freed slots (R118) -/

theorem Events.serve_eq_foldl (k : Nat) (e : Events) :
    Events.serve k e = (List.replicate k ()).foldl (fun v _ => v.serveSlot) e := by
  induction k generalizing e with
  | zero => rfl
  | succ k ih => rw [Events.serve, ih, List.replicate_succ, List.foldl_cons]

/-! ### Window counters (R57, R61) -/

theorem State.abandon_windows (s : State) (c d : ChanNo) :
    (s.abandon c).counters.windows[d] = if d = c then s.abandonCounts c else s.counters.windows[d] := by
  cases ho : (s.chan c).window.openWin with
  | none =>
    have h1 : s.abandon c = s := by simp [State.abandon, ho]
    have h2 : s.abandonCounts c = s.counters.windows[c] := by simp [State.abandonCounts, ho]
    rw [h1, h2]
    split
    · rename_i h
      rw [h]
    · rfl
  | some o =>
    have h1 : (s.abandon c).counters.windows = s.counters.windows.set c s.counters.windows[c].abandon := by
      simp only [State.abandon, ho]
      rfl
    have h2 : s.abandonCounts c = s.counters.windows[c].abandon := by simp [State.abandonCounts, ho, WindowCounts.abandon]
    rw [h1, h2]
    split
    · rename_i h
      subst h
      simp
    · rename_i h
      have h' : c.val ≠ d.val := fun e => h (Fin.ext e.symm)
      simp [Vector.getElem_set_ne, h']

section
variable (s : State) (c : ChanNo)

@[simp] theorem State.endEngagement_windows (x : ReleaseReason) :
    (s.endEngagement c x).counters.windows = s.counters.windows := by
  unfold State.endEngagement
  split
  · exact State.hand_windows s c _
  · rfl

theorem State.silenceEvent_windows :
    (s.silenceEvent c).counters.windows =
      if (s.chan c).running then (s.abandon c).counters.windows else s.counters.windows := by
  unfold State.silenceEvent
  split
  · exact (State.hand_windows _ _ _).trans (State.endEngagement_windows _ _ _)
  · rfl

theorem State.unrouteEvent_windows :
    (s.unrouteEvent c).counters.windows =
      if (s.chan c).running then (s.abandon c).counters.windows else s.counters.windows := by
  unfold State.unrouteEvent
  split
  · exact State.endEngagement_windows _ _ _
  · rfl

theorem State.stuckExpiry_windows : (s.stuckExpiry c).counters.windows = (s.abandon c).counters.windows :=
  (State.endEngagement_windows _ _ _).trans (State.hand_windows _ _ _)

theorem State.forceSettling_windows : (s.forceSettling c).counters.windows = (s.abandon c).counters.windows :=
  State.endEngagement_windows _ _ _

end

/-! ### Full windows (R43–R47) -/

theorem State.windowWith_of_fullWith {s : State} {c : ChanNo} {x : Sample} {w : Window} (h : s.fullWith c x w) :
    s.windowWith c x = w ∧ w.fill = w.latched := by
  rcases h with ⟨o, ho, hf, rfl⟩ | ⟨ho, hl, rfl⟩
  · constructor
    · unfold State.windowWith
      rw [ho]
      rfl
    · exact hf
  · constructor
    · unfold State.windowWith
      rw [ho]
      show Window.openWith _ x = _
      have hl' : (s.profileOf c).lengths[s.tierInUse c (s.profileOf c)] = 1 := hl
      rw [hl']
      rfl
    · rfl

/-- A sample that fills its window closes it (R47). -/
theorem State.deliverSample_of_fullWith {s : State} {c : ChanNo} {x : Sample} {w : Window}
    (ht : (s.chan c).run.state.takesSamples = true) (h : s.fullWith c x w) :
    s.deliverSample c x = s.closeWindow c w := by
  obtain ⟨h1, h2⟩ := State.windowWith_of_fullWith h
  unfold State.deliverSample
  rw [if_pos ht]
  simp only [h1, h2, Nat.lt_irrefl, if_false]

/-! ### The lanes of a frame (R27) -/

theorem range_pairwise (r : Route) : r.range.Pairwise (· < ·) :=
  (List.pairwise_lt_finRange 64).filter _

/-- The channels of a route, lane by lane. -/
theorem range_eq_lanes (r : Route) :
    r.range = (List.range r.lanes).filterMap fun i =>
      if h : r.base.val + i < 64 then some (⟨r.base.val + i, h⟩ : ChanNo) else none := by
  refine List.Perm.eq_of_pairwise (le := (· < ·)) ?_ (range_pairwise r) ?_ ?_
  · intro a b _ _ h1 h2
    exact absurd h1 (lt_asymm h2)
  · refine List.Pairwise.filterMap _ ?_ List.pairwise_lt_range
    intro i j hij a ha b hb
    split at ha <;> split at hb <;> simp_all
    subst ha hb
    simpa using hij
  · refine (List.perm_ext_iff_of_nodup (range_nodup r) ?_).mpr ?_
    · refine List.Pairwise.filterMap _ ?_ List.nodup_range
      intro i j hij a ha b hb
      split at ha <;> split at hb <;> simp_all
      subst ha hb
      intro e
      exact hij (by simpa using e)
    · intro c
      simp only [mem_range, Route.covers, List.mem_filterMap, List.mem_range]
      constructor
      · intro h
        simp only [Bool.and_eq_true, decide_eq_true_eq] at h
        exact ⟨c.val - r.base.val, by omega, by
          have : r.base.val + (c.val - r.base.val) = c.val := by omega
          simp [this, c.isLt]⟩
      · rintro ⟨i, hi, h⟩
        split at h
        · cases h
          simp [hi]
        · cases h

theorem lanes_foldl {r : Route} (n : Nat) : ∀ (k : Nat) (before samples : List Sample) (s : State), before.length = k →
    ((((List.range' k n).filterMap fun i =>
        if h : r.base.val + i < 64 then some (⟨r.base.val + i, h⟩ : ChanNo) else none).zip samples).foldl
      (fun s lane => s.deliverSample lane.1 lane.2) s) =
    (List.range' k (min samples.length n)).foldl
      (fun u i => if h : r.base.val + i < 64 ∧ i < (before ++ samples).length then
        u.deliverSample ⟨r.base.val + i, h.1⟩ (before ++ samples)[i] else u) s := by
  induction n with
  | zero => intro k before samples s _; simp
  | succ n ih =>
    intro k before samples s hk
    cases samples with
    | nil => simp
    | cons x xs =>
      have hm : min (x :: xs).length (n + 1) = min xs.length n + 1 := by simp [Nat.add_min_add_right]
      rw [hm, List.range'_succ, List.range'_succ, List.foldl_cons]
      by_cases hb : r.base.val + k < 64
      · rw [List.filterMap_cons_some (b := ⟨r.base.val + k, hb⟩) (by simp [hb]), List.zip_cons_cons, List.foldl_cons,
          ih (k + 1) (before ++ [x]) xs _ (by simp [hk])]
        have hx : (before ++ x :: xs)[k]'(by simp [← hk]) = x := by
          subst hk
          simp
        simp only [List.append_assoc, List.singleton_append]
        congr 1
        rw [dif_pos ⟨hb, by simp [← hk]⟩, hx]
      · have hnone : (List.range' (k + 1) n).filterMap (fun i =>
            if h : r.base.val + i < 64 then some (⟨r.base.val + i, h⟩ : ChanNo) else none) = [] := by
          rw [List.filterMap_eq_nil_iff]
          intro i hi
          have := (List.mem_range'_1.mp hi).1
          exact dif_neg (by omega)
        rw [List.filterMap_cons_none (by simp [hb]), hnone, dif_neg (by omega)]
        have hskip : ∀ (l : List Nat), (∀ i ∈ l, k < i) → ∀ u : State, l.foldl
            (fun u i => if h : r.base.val + i < 64 ∧ i < (before ++ x :: xs).length then
              u.deliverSample ⟨r.base.val + i, h.1⟩ (before ++ x :: xs)[i] else u) u = u := by
          intro l
          induction l with
          | nil => intro _ u; rfl
          | cons i l ihl =>
            intro hl u
            rw [List.foldl_cons, dif_neg (by have := hl i (by simp); omega)]
            exact ihl (fun j hj => hl j (by simp [hj])) u
        rw [hskip _ fun i hi => by have := (List.mem_range'_1.mp hi).1; omega]
        rfl

/-- The samples delivered are those of the lanes that frame and route share, in ascending order (R27). -/
theorem State.lanesTaken_eq (s : State) (r : Route) (samples : List Sample) :
    s.lanesTaken r samples = (r.range.zip samples).foldl (fun s lane => s.deliverSample lane.1 lane.2) s := by
  rw [range_eq_lanes, List.range_eq_range', lanes_foldl r.lanes 0 [] samples s rfl, State.lanesTaken, List.range_eq_range']
  rfl

/-! ### The bank swap (R39) -/

theorem overlaps_symm {a b : Route} (h : a.overlaps b = false) : b.overlaps a = false := by
  rw [← h]
  simp [Route.overlaps, Bool.and_comm]

/-- In a bank without shared channels, the entry that covers a channel is the one that is found. -/
theorem mappingOf_eq_some {bank : List Route} (hb : bankOk bank) (c : ChanNo) (source : Byte) (lane : Nat) :
    mappingOf bank c = some (source, lane) ↔ bankMaps bank source lane c := by
  unfold mappingOf bankMaps
  rw [Option.map_eq_some_iff]
  constructor
  · rintro ⟨r, hr, he⟩
    have hc : r.covers c = true := by simpa using List.find?_some hr
    simp only [Route.covers, Bool.and_eq_true, decide_eq_true_eq] at hc
    simp only [Prod.mk.injEq] at he
    exact ⟨r, List.mem_of_find?_eq_some hr, he.1, by omega, by omega⟩
  · rintro ⟨r, hm, hs, hl, hc⟩
    have hrc : r.covers c = true := by simp [Route.covers]; omega
    obtain ⟨r', hr'⟩ : ∃ r', bank.find? (·.covers c) = some r' := by
      cases hf : bank.find? (·.covers c) with
      | some r' => exact ⟨r', rfl⟩
      | none => exact absurd hrc (by simpa using List.find?_eq_none.mp hf r hm)
    have heq : r' = r := by
      by_contra hne
      have hc' : r'.covers c = true := by simpa using List.find?_some hr'
      have : Std.Symm fun a b : Route => a.overlaps b = false := ⟨fun _ _ => overlaps_symm⟩
      have hp : bank.Pairwise fun a b => a.overlaps b = false := hb.2.2.imp fun h => h.2
      have hsep := hp.forall (List.mem_of_find?_eq_some hr') hm hne
      simp only [Route.overlaps, Route.covers, Bool.and_eq_true, decide_eq_true_eq, Bool.and_eq_false_iff,
        decide_eq_false_iff_not] at hsep hc' hrc
      omega
    subst heq
    exact ⟨r', hr', by simp [hs]; omega⟩

/-- The channels that a swap unroutes, in the words of the statements (R39). -/
theorem State.unroutes_iff {s : State} (h : s.routesOk) (c : ChanNo) :
    s.unroutes c ↔ unroutedBy (s.inlet.active.map (·.route)) s.inlet.shadow c = true ∧ (s.chan c).running = true := by
  unfold State.unroutes unroutedBy
  rw [show (s.chan c).running = true ↔ (s.chan c).config.mode ≠ .off by simp [Channel.running]]
  refine and_congr_left fun _ => ?_
  simp only [← mappingOf_eq_some h.1, ← mappingOf_eq_some h.2.1, Bool.and_eq_true, bne_iff_ne]
  cases ho : mappingOf (s.inlet.active.map (·.route)) c with
  | none => simp
  | some x =>
    obtain ⟨source, lane⟩ := x
    simp

theorem State.unrouteEvent_events (s : State) (c : ChanNo) :
    (s.unrouteEvent c).events =
      if (s.chan c).running = true ∧ (s.chan c).run.engaged = true then
        s.events.enter { kind := .release .unrouted none, channel := c, time := s.time, loss := 0 }
      else s.events := by
  unfold State.unrouteEvent
  by_cases hr : (s.chan c).running = true
  · have he : ((s.abandon c).chan c).run = (s.chan c).run := by rw [State.chan_abandon]
    simp only [hr, if_true, true_and]
    show ((s.abandon c).endEngagement c .unrouted).events = _
    unfold State.endEngagement
    rw [he]
    split
    · exact (State.hand_events _ _ _).trans (by simp)
    · simp
  · simp [hr]

/-- The unroute events of distinct channels: each engaged running one gets its RELEASE, in order (R39, R83). -/
theorem foldl_unroute_events (l : List ChanNo) (hl : l.Nodup) (s : State) :
    (l.foldl State.unrouteEvent s).events =
      (l.filter fun c => (s.chan c).running && (s.chan c).run.engaged).foldl
        (fun e c => e.enter { kind := .release .unrouted none, channel := c, time := s.time, loss := 0 }) s.events := by
  induction l generalizing s with
  | nil => rfl
  | cons c l ih =>
    have hn := List.nodup_cons.mp hl
    have side := channelSide_unrouteEvent (P := (· = c)) s c rfl
    have hsame : (l.filter fun d => ((s.unrouteEvent c).chan d).running && ((s.unrouteEvent c).chan d).run.engaged) =
        l.filter fun d => (s.chan d).running && (s.chan d).run.engaged :=
      List.filter_congr fun d hd => by rw [side.others d fun e => hn.1 (e ▸ hd)]
    rw [List.foldl_cons, ih hn.2, hsame, side.time, State.unrouteEvent_events]
    by_cases h : (s.chan c).running = true ∧ (s.chan c).run.engaged = true
    · rw [if_pos h, List.filter_cons_of_pos (by simp [h]), List.foldl_cons]
    · rw [if_neg h, List.filter_cons_of_neg (by simpa using h)]

theorem foldl_unroute_windows (l : List ChanNo) (hl : l.Nodup) (s : State) (d : ChanNo) :
    (l.foldl State.unrouteEvent s).counters.windows[d] =
      if d ∈ l ∧ (s.chan d).running = true then s.abandonCounts d else s.counters.windows[d] := by
  induction l generalizing s with
  | nil => simp
  | cons c l ih =>
    have hn := List.nodup_cons.mp hl
    have side := channelSide_unrouteEvent (P := (· = c)) s c rfl
    have hw : ∀ d : ChanNo, (s.unrouteEvent c).counters.windows[d] =
        if d = c ∧ (s.chan c).running = true then s.abandonCounts c else s.counters.windows[d] := by
      intro d
      rw [State.unrouteEvent_windows]
      by_cases hr : (s.chan c).running = true
      · simp only [hr, if_true, and_true]
        exact State.abandon_windows s c d
      · simp [hr]
    rw [List.foldl_cons, ih hn.2]
    by_cases hd : d = c
    · subst hd
      rw [if_neg fun h => hn.1 h.1, hw]
      simp
    · have hc := side.others d hd
      have hk : (s.unrouteEvent c).counters.windows[d] = s.counters.windows[d] := by rw [hw, if_neg fun h => hd h.1]
      have ha : (s.unrouteEvent c).abandonCounts d = s.abandonCounts d := by
        unfold State.abandonCounts
        rw [hc, hk]
      rw [hc, ha, hk]
      simp only [List.mem_cons, hd, false_or]

/-! ### A restart that finds a due swap (R175) -/

/-- A restart keeps of a due swap only the exchange of the banks: channels, event path, counters and Management Unit begin
anew whatever the swap did to them. -/
theorem State.restart_takeDueSwap (s : State) (tag : Byte) :
    s.takeDueSwap.restart tag =
      { s.restart tag with inlet :=
        { reception := .hunting, swap := .none
          shadow := if s.inlet.swap = .due then s.inlet.active.map (·.route) else s.inlet.shadow
          active := (if s.inlet.swap = .due then s.inlet.shadow else s.inlet.active.map (·.route)).map fun r =>
            { route := r, track := .begin } } } := by
  unfold State.takeDueSwap
  by_cases h : s.inlet.swap = .due
  · have side := channelSide_takeSwap s
    have hm : s.takeSwap.alert.mode = s.alert.mode ∧ s.takeSwap.alert.hold = s.alert.hold :=
      side.alert (fun a => a.mode = s.alert.mode ∧ a.hold = s.alert.hold)
        (fun a x ha => by
          unfold Alert.report
          dsimp only
          split <;> exact ha) ⟨rfl, rfl⟩
    have hch : vmap Channel.restart s.takeSwap.channels = vmap Channel.restart s.channels := by
      apply Vector.ext
      intro i hi
      have := side.config ⟨i, hi⟩
      simp only [getElem_vmap]
      unfold Channel.restart
      rw [show s.takeSwap.channels[i].config = s.channels[i].config from this]
    have hg : vmap (fun g : Group => { g with tier := 0 }) s.takeSwap.groups = vmap (fun g : Group => { g with tier := 0 }) s.groups := by
      rw [show s.takeSwap.groups = s.groups from groups_foldl_unroute _ _]
    rw [if_pos h]
    unfold State.restart
    simp only [State.complete_power, State.complete_inlet, State.complete_channels, State.complete_groups,
      State.complete_profiles, State.complete_link, State.complete_alert, State.complete_pending, State.takeSwap_inlet,
      hch, hg, hm.1, hm.2]
    rw [show s.takeSwap.power = s.power from side.power, show s.takeSwap.profiles = s.profiles from side.profiles,
      show s.takeSwap.link = s.link from side.link, show s.takeSwap.pending = s.pending from side.pending]
    simp [h, Inlet.exchange, Function.comp_def]
  · rw [if_neg h]
    simp [h, State.restart, Function.comp_def]

/-! ### The outbound lane (R130, R131) -/

/-- A send row without the lane's grant changes nothing. -/
theorem send_without_grant (s : State) (i : Instr) (k : LaneClass)
    (hi : (i, k) ∈ [(Instr.responseFrameSend, LaneClass.response), (.announceFrameSend, .announce),
      (.retransmittedFrame, .retransmission), (.newEventFrame, .event), (.mirrorFrameSend, .mirror)])
    (h : s.laneGrant ≠ some k) : exec i s = .next s := by
  have hw : ∀ f : State → State, f s = s → s.whileOn f = s := by
    intro f hf
    unfold State.whileOn
    split <;> [exact hf; rfl]
  simp only [List.mem_cons, Prod.mk.injEq, List.not_mem_nil, or_false] at hi
  rcases hi with ⟨rfl, rfl⟩ | ⟨rfl, rfl⟩ | ⟨rfl, rfl⟩ | ⟨rfl, rfl⟩ | ⟨rfl, rfl⟩
  · exact congrArg Host.Outcome.next (hw _ (by split <;> simp_all))
  · exact congrArg Host.Outcome.next (hw _ (by simp [h]))
  · exact congrArg Host.Outcome.next (hw _ (by split <;> simp_all))
  · exact congrArg Host.Outcome.next (hw _ (by simp [h]))
  · exact congrArg Host.Outcome.next (hw _ (by split <;> simp_all))

end Sys2Proof.Machine
end

