-- ==== Sys2Proof/Laws/Records.lean ====
section
/-! SUPPORT. What records handed over do to event path, alert and counters, and which records the channel events hand over
(R102, R104, R113). -/

namespace Sys2Proof.Machine

/-! ### What a record handed over reads and writes -/

theorem State.sameRecords_trans {s u v : State} (h : s.sameRecords u) (g : u.sameRecords v) : s.sameRecords v :=
  ⟨h.1.trans g.1, h.2.1.trans g.2.1, h.2.2.1.trans g.2.2.1, h.2.2.2.trans g.2.2.2⟩

theorem State.sameRecords_raise {s u : State} (h : s.sameRecords u) (k : GlobalCounter) :
    (s.raise k).sameRecords (u.raise k) := by
  refine ⟨h.1, h.2.1, ?_, h.2.2.2⟩
  show s.counters.global.set _ (satAdd s.counters.global[k.idx] 1) = u.counters.global.set _ _
  rw [h.2.2.1]
  rfl

theorem State.sameRecords_report {s u : State} (h : s.sameRecords u) (x : Cause) :
    (s.report x).sameRecords (u.report x) :=
  ⟨h.1, congrArg (·.report x) h.2.1, h.2.2⟩

theorem State.sameRecords_enterRecord {s u : State} (h : s.sameRecords u) (r : Record) :
    (s.enterRecord r).sameRecords (u.enterRecord r) := by
  have ht : ({ s with events := s.events.enter r } : State).sameRecords { u with events := u.events.enter r } :=
    ⟨congrArg (·.enter r) h.1, h.2⟩
  unfold State.enterRecord
  rw [h.1] at ht ⊢
  dsimp only
  split
  · exact State.sameRecords_report (State.sameRecords_raise ht _) _
  · exact ht

theorem State.sameRecords_hand {s u : State} (h : s.sameRecords u) (c : ChanNo) (k : RecordKind) :
    (s.hand c k).sameRecords (u.hand c k) := by
  have h1 := State.sameRecords_raise h .recordsCreated
  unfold State.hand
  dsimp only
  cases k.urgent with
  | none =>
    rw [show (s.raise .recordsCreated).time = (u.raise .recordsCreated).time from h1.2.2.2]
    exact State.sameRecords_enterRecord h1 _
  | some x =>
    have h2 := State.sameRecords_report h1 x
    dsimp only
    rw [h2.2.2.2]
    exact State.sameRecords_enterRecord h2 _

theorem State.sameRecords_refl (s : State) : s.sameRecords s := ⟨rfl, rfl, rfl, rfl⟩

theorem State.sameRecords_handAll {s u : State} (h : s.sameRecords u) (c : ChanNo) (kinds : List RecordKind) :
    (s.handAll c kinds).sameRecords (u.handAll c kinds) := by
  induction kinds generalizing s u with
  | nil => exact h
  | cons k kinds ih => exact ih (State.sameRecords_hand h c k)

theorem State.handAll_events (s : State) (c : ChanNo) (kinds : List RecordKind) :
    (s.handAll c kinds).events = s.handed c kinds := by
  have key : ∀ s : State, ∀ t, s.time = t → (s.handAll c kinds).events =
      kinds.foldl (fun e k => e.enter { kind := k, channel := c, time := t, loss := 0 }) s.events := by
    induction kinds with
    | nil => exact fun _ _ _ => rfl
    | cons k kinds ih =>
      intro s t ht
      have := ih (s.hand c k) t (by simpa using ht)
      rw [State.hand_events, ht] at this
      exact this
  exact key s s.time rfl

section
variable {s u : State} (c : ChanNo)

theorem State.sameRecords_modRun (h : s.sameRecords u) (f : RunPart → RunPart) : (s.modRun c f).sameRecords u := h

theorem State.sameRecords_modWindow (h : s.sameRecords u) (f : WindowPart → WindowPart) :
    (s.modWindow c f).sameRecords u := h

theorem State.sameRecords_abandon (h : s.sameRecords u) : (s.abandon c).sameRecords u := by
  unfold State.abandon
  split <;> exact h

theorem State.sameRecords_endEngagement (h : s.sameRecords u) (x : ReleaseReason) :
    (s.endEngagement c x).sameRecords (u.handAll c (if (s.chan c).run.engaged then [.release x none] else [])) := by
  unfold State.endEngagement
  split
  · exact State.sameRecords_modRun c (State.sameRecords_hand h c _) _
  · exact h

end

/-! ### What channel events leave alone -/

theorem State.sameElsewhere_refl (s : State) : s.sameElsewhere s := ⟨rfl, rfl, rfl, rfl, rfl, rfl, rfl⟩

theorem State.sameElsewhere_hand {s u : State} (h : s.sameElsewhere u) (c : ChanNo) (k : RecordKind) :
    (s.hand c k).sameElsewhere u := by
  simpa [State.sameElsewhere] using h

section
variable {s u : State} (h : s.sameElsewhere u) (c : ChanNo)
include h

theorem State.sameElsewhere_modRun (f : RunPart → RunPart) : (s.modRun c f).sameElsewhere u := h

theorem State.sameElsewhere_modWindow (f : WindowPart → WindowPart) : (s.modWindow c f).sameElsewhere u := h

theorem State.sameElsewhere_enterSettling (x : CaptureCause) : (s.enterSettling c x).sameElsewhere u := h

theorem State.sameElsewhere_abandon : (s.abandon c).sameElsewhere u := by
  unfold State.abandon
  split <;> exact h

theorem State.sameElsewhere_endEngagement (x : ReleaseReason) : (s.endEngagement c x).sameElsewhere u := by
  unfold State.endEngagement
  split
  · exact State.sameElsewhere_hand h c _
  · exact h

end

section
variable (s : State) (c : ChanNo)

theorem State.sameElsewhere_confirmOnset {s u : State} (h : s.sameElsewhere u) (c : ChanNo) (p : Profile) (mean b n : Nat) :
    (s.confirmOnset c p mean b n).sameElsewhere u := by
  unfold State.confirmOnset
  split
  · exact State.sameElsewhere_hand h c _
  · exact h

theorem State.sameElsewhere_capture {s u : State} (h : s.sameElsewhere u) (c : ChanNo) (mean : Nat) :
    ((s.capture c mean).enterIdle c).sameElsewhere u :=
  State.sameElsewhere_hand (State.sameElsewhere_modRun h c _) c _

theorem State.sameElsewhere_leaveNoisy {s u : State} (h : s.sameElsewhere u) (c : ChanNo) (p : Profile) (mean : Nat) :
    (s.leaveNoisy c p mean).sameElsewhere u := by
  unfold State.leaveNoisy
  dsimp only
  split
  · exact State.sameElsewhere_capture h c mean
  · split
    · split
      · exact State.sameElsewhere_hand h c _
      · exact h
    · split
      · exact State.sameElsewhere_confirmOnset h c ..
      · exact h

/-- An accepted result moves nothing but its channel, the event path, the alert and the counters. -/
theorem State.sameElsewhere_acceptedMove (p : Profile) (mean : Nat) : (s.acceptedMove c p mean).sameElsewhere s := by
  have h := State.sameElsewhere_refl s
  unfold State.acceptedMove
  dsimp only
  split
  · exact State.sameElsewhere_capture h c mean
  · split
    · exact State.sameElsewhere_confirmOnset h c ..
    · exact h
  · split
    · exact State.sameElsewhere_confirmOnset h c ..
    · exact h
  · split
    · exact State.sameElsewhere_hand h c _
    · exact h
  · exact State.sameElsewhere_leaveNoisy (State.sameElsewhere_hand h c _) c p mean
  all_goals exact h

theorem State.sameElsewhere_takeRejected (p : Profile) (spread : Nat) : (s.takeRejected c p spread).sameElsewhere s := by
  have h := State.sameElsewhere_refl s
  unfold State.takeRejected
  dsimp only
  split
  all_goals first
    | exact h
    | split
      · exact State.sameElsewhere_hand h c _
      · first
        | exact h
        | split <;> exact h

theorem State.sameElsewhere_silenceEvent : (s.silenceEvent c).sameElsewhere s := by
  unfold State.silenceEvent
  split
  · exact State.sameElsewhere_hand
      (State.sameElsewhere_endEngagement (State.sameElsewhere_abandon (State.sameElsewhere_refl s) c) c _) c _
  · exact State.sameElsewhere_refl s

theorem State.sameElsewhere_resumeEvent : (s.resumeEvent c).sameElsewhere s := by
  unfold State.resumeEvent
  have h := State.sameElsewhere_hand (State.sameElsewhere_refl s) c .resumed
  split
  · dsimp only
    split <;> exact h
  · exact State.sameElsewhere_refl s

theorem State.sameElsewhere_unrouteEvent : (s.unrouteEvent c).sameElsewhere s := by
  unfold State.unrouteEvent
  split
  · exact State.sameElsewhere_endEngagement (State.sameElsewhere_abandon (State.sameElsewhere_refl s) c) c _
  · exact State.sameElsewhere_refl s

theorem State.sameElsewhere_stuckExpiry : (s.stuckExpiry c).sameElsewhere s :=
  State.sameElsewhere_enterSettling
    (State.sameElsewhere_endEngagement
      (State.sameElsewhere_hand (State.sameElsewhere_abandon (State.sameElsewhere_refl s) c) c _) c _) c _

theorem State.sameElsewhere_forceSettling : (s.forceSettling c).sameElsewhere s :=
  State.sameElsewhere_enterSettling
    (State.sameElsewhere_endEngagement (State.sameElsewhere_abandon (State.sameElsewhere_refl s) c) c _) c _

end

/-! ### The records of channel events -/

section
variable (s : State) (c : ChanNo)

theorem State.sameRecords_resumeEvent (h : (s.chan c).run.state = .silent) :
    (s.resumeEvent c).sameRecords (s.handAll c [.resumed]) := by
  unfold State.resumeEvent
  rw [if_pos h]
  dsimp only
  split <;> exact State.sameRecords_refl _

theorem State.sameRecords_unrouteEvent (h : (s.chan c).config.mode ≠ .off) :
    (s.unrouteEvent c).sameRecords (s.handAll c (if (s.chan c).run.engaged then [.release .unrouted none] else [])) := by
  have he := State.sameRecords_endEngagement c (State.sameRecords_abandon c (State.sameRecords_refl s)) .unrouted
  rw [State.chan_abandon] at he
  unfold State.unrouteEvent
  rw [if_pos (by simpa [Channel.running] using h)]
  exact he

theorem State.sameRecords_stuckExpiry {m : Nat} (hm : (s.chan c).window.lastMean = some m)
    (he : (s.chan c).run.engaged = true) :
    (s.stuckExpiry c).sameRecords (s.handAll c [.stuck m, .release .stuck none]) := by
  have h := State.sameRecords_hand (State.sameRecords_abandon c (State.sameRecords_refl s)) c (.stuck m)
  have hr := State.sameRecords_endEngagement c h .stuck
  rw [State.chan_hand, State.chan_abandon, if_pos he] at hr
  unfold State.stuckExpiry
  simp only [State.chan_abandon, hm, Option.getD_some]
  exact hr

theorem State.sameRecords_forceSettling :
    (s.forceSettling c).sameRecords (s.handAll c (if (s.chan c).run.engaged then [.release .rebase none] else [])) := by
  have he := State.sameRecords_endEngagement c (State.sameRecords_abandon c (State.sameRecords_refl s)) .rebase
  rw [State.chan_abandon] at he
  exact he

end

/-- The records of a silence event: RELEASE(SILENT) of an engaged channel, then SILENT. -/
theorem State.sameRecords_silenceEvent {s u : State} (h : s.sameRecords u) (c : ChanNo) :
    (s.silenceEvent c).sameRecords
      (if (s.chan c).running then
        (if (s.chan c).run.engaged then u.hand c (.release .silent none) else u).hand c .silent
      else u) := by
  unfold State.silenceEvent
  split
  · refine State.sameRecords_modRun c (State.sameRecords_hand ?_ c .silent) _
    have ha := State.sameRecords_abandon c h
    have he : ((s.abandon c).chan c).run = (s.chan c).run := by rw [State.chan_abandon]
    unfold State.endEngagement
    rw [he]
    split
    · exact State.sameRecords_modRun c (State.sameRecords_hand ha c _) _
    · exact ha
  · exact h

/-- The silence events of distinct channels: the running ones get their records, in order (R30, R81). -/
theorem foldl_silence_records (l : List ChanNo) (hl : l.Nodup) (s u : State) (h : s.sameRecords u) :
    (l.foldl State.silenceEvent s).sameRecords
      ((l.filter fun c => (s.chan c).running).foldl (fun v c =>
        (if (s.chan c).run.engaged then v.hand c (.release .silent none) else v).hand c .silent) u) := by
  suffices hs : ∀ s' : State, (∀ c ∈ l, s'.chan c = s.chan c) → s'.sameRecords u →
      (l.foldl State.silenceEvent s').sameRecords
        ((l.filter fun c => (s.chan c).running).foldl (fun v c =>
          (if (s.chan c).run.engaged then v.hand c (.release .silent none) else v).hand c .silent) u) from
    hs s (fun _ _ => rfl) h
  clear h
  induction l generalizing u with
  | nil => exact fun s' _ h => h
  | cons c l ih =>
    intro s' hc h
    have hn := List.nodup_cons.mp hl
    have side := channelSide_silenceEvent (P := (· = c)) s' c rfl
    have hr := State.sameRecords_silenceEvent h c
    rw [hc c (by simp)] at hr
    have hrest : ∀ d ∈ l, (s'.silenceEvent c).chan d = s.chan d := fun d hd =>
      (side.others d fun e => hn.1 (e ▸ hd)).trans (hc d (by simp [hd]))
    rw [List.foldl_cons]
    by_cases hrun : (s.chan c).running = true
    · rw [List.filter_cons_of_pos (p := fun c => (s.chan c).running) hrun, List.foldl_cons]
      rw [if_pos hrun] at hr
      exact ih hn.2 _ _ hrest hr
    · rw [List.filter_cons_of_neg (p := fun c => (s.chan c).running) hrun]
      rw [if_neg hrun] at hr
      exact ih hn.2 _ _ hrest hr

/-- The unroute events of distinct channels: each engaged running one gets its RELEASE handed over, in order (R39, R83). -/
theorem foldl_unroute_records (l : List ChanNo) (hl : l.Nodup) (s u : State) (h : s.sameRecords u) :
    (l.foldl State.unrouteEvent s).sameRecords
      ((l.filter fun c => (s.chan c).running && (s.chan c).run.engaged).foldl
        (fun v c => v.hand c (.release .unrouted none)) u) := by
  induction l generalizing s u with
  | nil => exact h
  | cons c l ih =>
    have hn := List.nodup_cons.mp hl
    have side := channelSide_unrouteEvent (P := (· = c)) s c rfl
    have hsame : (l.filter fun d => ((s.unrouteEvent c).chan d).running && ((s.unrouteEvent c).chan d).run.engaged) =
        l.filter fun d => (s.chan d).running && (s.chan d).run.engaged :=
      List.filter_congr fun d hd => by rw [side.others d fun e => hn.1 (e ▸ hd)]
    rw [List.foldl_cons]
    by_cases hrun : (s.chan c).running = true
    · have hr := State.sameRecords_trans (State.sameRecords_unrouteEvent s c (by simpa [Channel.running] using hrun))
        (State.sameRecords_handAll h c _)
      by_cases he : (s.chan c).run.engaged = true
      · rw [if_pos he] at hr
        rw [List.filter_cons_of_pos (by simp [hrun, he]), List.foldl_cons, ← hsame]
        exact ih hn.2 _ _ hr
      · rw [if_neg he] at hr
        rw [List.filter_cons_of_neg (by simp [he]), ← hsame]
        exact ih hn.2 _ _ hr
    · have hs : s.unrouteEvent c = s := by simp [State.unrouteEvent, hrun]
      rw [List.filter_cons_of_neg (by simp [hrun]), ← hsame, hs]
      exact ih hn.2 _ _ h

/-! ### Removed frames, and staged values released (R120, R122) -/

theorem State.framesDelivered_cons (s : State) (oldest : EventFrame) (newer : List EventFrame) :
    s.framesDelivered (oldest :: newer) = (oldest.records.foldl State.recordDelivered s).framesDelivered newer := by
  simp [State.framesDelivered]

theorem State.unstage_eq (s : State) (c : ChanNo) : s.unstage c = s.releaseStaged c := rfl

end Sys2Proof.Machine
end

