-- ==== Sys2Proof/Laws/Wire.lean ====
section
/-! SUPPORT. The bytes that the statements give (Safety) are those of the model: the frames on OUTLET_TX (R187–R190), the
parameter blocks (R191), and the ranges of a profile (R13). -/

namespace Sys2Proof.Machine

/-! ### Bytes on the wire (R187–R190) -/

theorem frameBytes_eq_wireFrame (kind : Byte) (payload : List Byte) : frameBytes kind payload = wireFrame kind payload := by
  simp [frameBytes, wireFrame, Config.syncBytes, frameCrc, be16_eq_twoBytes, byteOf]

theorem Record.bytes_eq (r : Record) : r.bytes = recordBytes r := by
  have hf : r.kind.fields = recordColumns r.kind := by
    cases r.kind with
    | release x v => cases v <;> cases x <;> rfl
    | rebase b x => cases x <;> rfl
    | _ => rfl
  have hq : (recordColumns r.kind).1 < 16 ∧ (recordColumns r.kind).2.1 < 4 := by
    cases r.kind with
    | release x v => cases v <;> simp [recordColumns]
    | rebase b x => cases x <;> simp [recordColumns]
    | _ => simp [recordColumns]
  obtain ⟨h1, h2⟩ := hq
  have hc := r.channel.isLt
  unfold Record.bytes recordBytes
  rw [hf]
  generalize recordColumns r.kind = x at *
  obtain ⟨code, qualifier, a, b⟩ := x
  simp only at h1 h2
  simp only [be24, tickBytes, List.cons_append, List.nil_append, List.cons.injEq, and_true, true_and]
  refine ⟨?_, ?_, ?_, ?_, ?_⟩ <;> apply BitVec.eq_of_toNat_eq <;>
    simp only [BitVec.toNat_append, BitVec.toNat_ofNat, BitVec.extractLsb'_toNat, Nat.shiftRight_eq_div_pow,
      Nat.shiftLeft_eq]
  · rw [← Nat.shiftLeft_eq, ← Nat.shiftLeft_add_eq_or_of_lt (by omega)]; omega
  · rw [← Nat.shiftLeft_eq, ← Nat.shiftLeft_add_eq_or_of_lt (by omega)]; omega
  · rw [← Nat.shiftLeft_eq, ← Nat.shiftLeft_add_eq_or_of_lt (by omega)]; omega
  · rw [← Nat.shiftLeft_eq, ← Nat.shiftLeft_add_eq_or_of_lt (by omega)]; omega
  · rw [← Nat.shiftLeft_eq, ← Nat.shiftLeft_add_eq_or_of_lt (by omega)]; omega

theorem OutFrame.bytes_event (f : EventFrame) : (OutFrame.event f).bytes = eventBytes f := by
  have hs : (0 : BitVec 2) ++ f.seq = BitVec.ofNat 8 f.seq.toNat := by
    apply BitVec.eq_of_toNat_eq
    have := f.seq.isLt
    rw [BitVec.toNat_append, ← Nat.shiftLeft_add_eq_or_of_lt (by omega)]
    simp
    omega
  show frameBytes _ _ = _
  rw [frameBytes_eq_wireFrame]
  simp only [OutFrame.content, EventFrame.payload, hs, byteOf, funext Record.bytes_eq, eventBytes]
  rfl

theorem OutFrame.bytes_mirror (m : SampleFrame) : (OutFrame.mirror m).bytes = mirrorBytes m := by
  show frameBytes _ _ = _
  rw [frameBytes_eq_wireFrame]
  have h : ∀ x : Sample, (let w : BitVec 16 := BitVec.ofBool x.overrange ++ (0 : BitVec 3) ++ x.value
      [w.extractLsb' 8 8, w.extractLsb' 0 8]) = twoBytes ((if x.overrange then 32768 else 0) + x.value.toNat) := by
    intro x
    show be16 _ = _
    rw [be16_eq_twoBytes]
    congr 1
    have := x.value.isLt
    rw [BitVec.toNat_append, BitVec.toNat_append, ← Nat.shiftLeft_add_eq_or_of_lt (by omega)]
    cases x.overrange <;> simp [Nat.shiftLeft_eq]
  simp only [OutFrame.content, samplePayload, h, mirrorBytes]
  rfl

theorem OutFrame.bytes_response (r : Response) : (OutFrame.response r).bytes = responseBytes r := by
  show frameBytes _ _ = _
  rw [frameBytes_eq_wireFrame]
  simp only [OutFrame.content, Response.payload, responseBytes]
  cases r.status <;> cases r.replayed <;> rfl

theorem OutFrame.bytes_announce (cause : ResetCause) (tick : Tick) :
    (OutFrame.announce cause tick).bytes = announceBytes cause tick := by
  show frameBytes _ _ = _
  rw [frameBytes_eq_wireFrame]
  cases cause <;> rfl

/-- OUTLET_TX, by the frame in transmission (R130, R187). -/
theorem State.outletTx_eq (s : State) :
    s.outletTx =
      match s.link.lane with
      | none => [0x00]
      | some (.response r) => responseBytes r
      | some (.announce cause tick) => announceBytes cause tick
      | some (.event f) => eventBytes f
      | some (.mirror m) => mirrorBytes m := by
  unfold State.outletTx
  cases s.link.lane with
  | none => rfl
  | some f =>
    cases f with
    | response r => exact OutFrame.bytes_response r
    | announce cause tick => exact OutFrame.bytes_announce cause tick
    | event f => exact OutFrame.bytes_event f
    | mirror m => exact OutFrame.bytes_mirror m

/-- A receiver reads back the bytes that were sent (R186). -/
theorem bytesOfLine_flatMap (bytes : List Byte) : bytesOfLine (bytes.flatMap byteBits) = bytes := by
  have h : ∀ b : Byte, BitVec.ofBool (b.getLsbD 7) ++ BitVec.ofBool (b.getLsbD 6) ++ BitVec.ofBool (b.getLsbD 5) ++
      BitVec.ofBool (b.getLsbD 4) ++ BitVec.ofBool (b.getLsbD 3) ++ BitVec.ofBool (b.getLsbD 2) ++
      BitVec.ofBool (b.getLsbD 1) ++ BitVec.ofBool (b.getLsbD 0) = b := by decide +kernel
  induction bytes with
  | nil => rfl
  | cons b rest ih =>
    rw [List.flatMap_cons]
    show _ :: bytesOfLine (rest.flatMap byteBits) = _
    rw [ih, h]

theorem byteBits_eq (b : Byte) : byteBits b = (List.range 8).map fun i => b.getLsbD (7 - i) := rfl

theorem crc16_append (bytes : List Byte) (b : Byte) : crc16 (bytes ++ [b]) = crcByte (crc16 bytes) b := by
  simp [crc16]

/-- The CRC register takes one byte more (R187). -/
theorem crc16_snoc (bytes : List Byte) (b : Byte) :
    crc16 (bytes ++ [b]) = Nat.repeat crcBit 8 (crc16 bytes ^^^ (b ++ (0 : Byte))) := by
  rw [crc16_append]
  unfold crcByte
  congr 2
  apply BitVec.eq_of_toNat_eq
  have := b.isLt
  rw [BitVec.toNat_append, ← Nat.shiftLeft_add_eq_or_of_lt (by simp)]
  simp [Nat.shiftLeft_eq]
  omega

/-! ### Parameter blocks (R191) -/

theorem parseChannelConfig_bytes (c : ChanNo) (k : ChannelConfig) :
    ∃ b0 b1 b2 b3 b4, channelRequestBytes c k = [b0, b1, b2, b3, b4] ∧ parseChannelConfig b0 b1 b2 b3 b4 = some (c, k) := by
  refine ⟨_, _, _, _, _, rfl, ?_⟩
  have h0 : channelOf (BitVec.ofNat 8 c.val) = some c := by
    have h := c.isLt
    have hm : c.val % 256 = c.val := Nat.mod_eq_of_lt (by omega)
    simp [channelOf, toFin, hm]
  have h2 : toFin 16 (BitVec.ofNat 8 k.profile.val).toNat = some k.profile := by
    have hm : k.profile.val % 256 = k.profile.val := Nat.mod_eq_of_lt (by omega)
    simp [toFin, hm]
  have h3 : ∀ g : Option (Fin 8), groupOf (match g with
      | none => 0
      | some g => BitVec.ofNat 8 (g.val + 1)) = some g := by decide +kernel
  obtain ⟨m, p, g, q⟩ := k
  unfold parseChannelConfig
  simp only [h0, h2]
  have hn : groupOf 0#8 = some none := rfl
  cases m <;> cases q <;> cases g <;> simp [modeOf, polarityOf, hn, h3 (some _)]

theorem channelRequestBytes_surj (b0 b1 b2 b3 b4 : Byte) (h0 : b0.toNat < 64) (h1 : b1.toNat ≤ 2) (h2 : b2.toNat ≤ 15)
    (h3 : b3.toNat ≤ 8) (h4 : b4.toNat ≤ 1) : ∃ c new, [b0, b1, b2, b3, b4] = channelRequestBytes c new := by
  have hg : ∀ b : Byte, b.toNat ≤ 8 → ∃ g : Option (Fin 8), b = match g with
      | none => 0
      | some g => BitVec.ofNat 8 (g.val + 1) := by decide +kernel
  obtain ⟨g, hg⟩ := hg b3 h3
  refine ⟨⟨b0.toNat, h0⟩,
    { mode := if b1 = 0 then .off else if b1 = 1 then .events else .values, profile := ⟨b2.toNat, by omega⟩
      group := g
      polarity := if b4 = 0 then .rising else .falling }, ?_⟩
  unfold channelRequestBytes
  simp only [List.cons.injEq, and_true]
  refine ⟨by simp, ?_, by simp, ?_, ?_⟩
  · revert b1; decide +kernel
  · exact hg
  · revert b4; decide +kernel

theorem parseRoute_eq_some {b0 b1 b2 b3 b4 b5 : Byte} {base : ChanNo} (h1 : b1.toNat = base.val) (h2 : 1 ≤ b2.toNat)
    (h2' : b2.toNat ≤ 16) (h12 : b1.toNat + b2.toNat ≤ 64) (h3 : b3.toNat ≤ 1) :
    parseRoute b0 b1 b2 b3 b4 b5 =
      some { source := b0, base := base, lanes := b2.toNat, mirror := decide (b3 = 1),
             silence := 256 * b4.toNat + b5.toNat } := by
  have hb : channelOf b1 = some base := by
    simp [channelOf, toFin, h1]
  have hm : flagOf b3 = some (decide (b3 = 1)) := by
    revert b3
    decide +kernel
  have hw : (word16 b4 b5).toNat = 256 * b4.toNat + b5.toNat := by
    have := b5.isLt
    simp only [word16, BitVec.toNat_append]
    rw [← Nat.shiftLeft_add_eq_or_of_lt (by omega), Nat.shiftLeft_eq]
    omega
  unfold parseRoute
  simp only [hb, hm, hw]
  rw [if_pos ⟨h2, h2', by omega⟩]

theorem parseRoute_eq_none {b0 b1 b2 b3 b4 b5 : Byte}
    (h : 64 ≤ b1.toNat ∨ b2.toNat = 0 ∨ 16 < b2.toNat ∨ 64 < b1.toNat + b2.toNat ∨ 2 ≤ b3.toNat) :
    parseRoute b0 b1 b2 b3 b4 b5 = none := by
  unfold parseRoute
  split
  · rename_i b m hb hm
    rw [if_neg]
    have hb' : b.val = b1.toNat := by
      unfold channelOf toFin at hb
      split at hb
      · cases hb; rfl
      · cases hb
    have hm' : b3.toNat ≤ 1 := by
      unfold flagOf at hm
      split at hm
      · simp_all
      · split at hm
        · simp_all
        · cases hm
    have := b.isLt
    omega
  · rfl

theorem profileData_eq (n : Fin 16) (p : Profile) : profileData n p = profileBytes n p := by
  have : ∀ b : Bool, flagByte [b] = if b then 1 else 0 := by decide
  simp [profileData, profileBytes, wordOf_eq_twoBytes, this, byteOf]

theorem Profile.valid_iff (p : Profile) :
    p.valid = true ↔
      (∀ l ∈ p.lengths.toList, 1 ≤ l ∧ l ≤ 64) ∧
      p.b1 ≤ p.b2 ∧ p.b2 ≤ p.b3 ∧ p.b3 ≤ p.b4 ∧ p.b4 ≤ 4095 ∧ p.spreadLimit ≤ 4095 ∧
      1 ≤ p.rejectLimit ∧ p.rejectLimit ≤ 15 ∧ 1 ≤ p.onset ∧ p.onset ≤ 4095 ∧ p.release ≤ 4094 ∧ p.release < p.onset ∧
      1 ≤ p.confirm ∧ p.confirm ≤ 8 ∧ p.maxActive ≤ 255 ∧ 1 ≤ p.driftInterval ∧ p.driftInterval ≤ 255 ∧
      p.driftStep ≤ 63 ∧ p.reportDelta ≤ 4095 := by
  simp only [Profile.valid, Bool.and_eq_true, List.all_eq_true, decide_eq_true_eq, and_assoc]

end Sys2Proof.Machine
end

