-- ==== Sys2Proof/Tests/Slice0.lean ====
section
/-! SUPPORT. The model's own tests: terms that WellFormed refuses, bytes on the wire, one small step of each family, and, for
every statement with hypotheses, a state and operands that meet them. -/

namespace Sys2Proof.Tests
open Sys2Proof.Machine

set_option Elab.async false

/-! ### States to test on -/

/-- A running part with an UP link and no credit. -/
def up : State :=
  { State.reset with
    link := { State.reset.link with state := .up, announceTimer := none, announceDue := false, credits := 2 } }

/-- A channel in VALUES mode without a group. -/
def chanIn (state : ChanState) (baseline : Option Nat) : Channel where
  config := { mode := .values, profile := 0, group := none, polarity := .rising }
  window := { openWin := none, tier := 0, lastRate := 0, lastMean := baseline }
  run := { Channel.initial.run with state := state, baseline := baseline, quiet := none }

/-- Channel 3 of a running part. -/
def on3 (ch : Channel) : State := State.reset.setChan 3 ch

/-- Channel 3 ACTIVE on baseline 1000. -/
def active3 : Channel :=
  let ch := chanIn .active (some 1000)
  { ch with run := { ch.run with engaged := true, maxActive := some 0 } }

/-- Channel 3 PENDING with a confirm count of 1. -/
def pending3 : Channel :=
  let ch := chanIn .pending (some 1000)
  { ch with run := { ch.run with confirm := 1 } }

/-- A request at the head of an otherwise empty Request Queue. -/
def asked (s : State) (command : Byte) (params : List Byte) : State :=
  { s with mgmt := { requests := [{ tag := 9, command := command, params := params }], responses := [], cache := [] } }

/-- A route of source 7 onto channels 0 to 3. -/
def route7 : Route := { source := 7, base := 0, lanes := 4, mirror := true, silence := 50 }

/-- A part that routes source 7, the next frame expected to be number 5. -/
def routed : State :=
  { up with inlet := { up.inlet with
    active := [{ route := route7, track := { synced := true, expected := 5, timer := some 0, silent := false } }]
    shadow := [route7] } }

/-- Two samples of source 7. -/
def samples7 (sequence : Byte) : SampleFrame :=
  { source := 7, sequence := sequence, samples := [⟨100, false⟩, ⟨4095, true⟩] }

/-- A VALUE and a record that is none, of channel 3. -/
def valueOf3 : Record := { kind := .value 1200 1, channel := 3, time := 77, loss := 2 }
def onsetOf3 : Record := { kind := .onset 1200 1000, channel := 3, time := 70, loss := 0 }

/-- An event path with the given queue and delivery part of channel 3. -/
def eventsOf (queue : List Record) (d : Delivery) : State :=
  { up with events := { up.events.setDel 3 d with queue := queue } }

/-- A frame in the Replay Buffer. -/
def frame (seq : BitVec 6) : EventFrame := { seq := seq, records := [onsetOf3] }

/-- An UP link with the frames 0 and 1 in flight. -/
def inFlight2 : State :=
  { up with link := { up.link with replay := [frame 0, frame 1], nextSeq := 2, ackTimer := some 0, roundLeft := 0 } }

/-- A grant of 3 that acknowledges frame 0. -/
def ack0 : RawFrame := mkAck 0 3 false

/-- A part in which every block holds something: channel 3 engaged and the only member of group 0, one frame with its VALUE
in flight, a record queued, two routes, a request and a cached answer. -/
def busyPart : State :=
  let w : Window := { latched := 8, fill := 2, sum := 2400, minimum := 1190, maximum := 1210, overrange := false }
  let s := routed.setChan 3
    { config := { active3.config with group := some 0 }
      window := { openWin := some w, tier := 0, lastRate := 7, lastMean := some 1200 }
      run := active3.run }
  { s with
    groups := s.groups.set 0 { tier := 2, members := 1 }
    events := { (s.events.setDel 3 { held := [], pendingLoss := 0, inFlight := true,
                                     staged := some { value := 1300, tier := 1, time := 80 } }) with queue := [onsetOf3] }
    link := { s.link with replay := [{ seq := 4, records := [valueOf3] }], nextSeq := 5, ackTimer := some 20 }
    mgmt := { requests := [{ tag := 9, command := 0x01, params := [] }], responses := []
              cache := [{ tag := 8, command := 0x01, status := .ok, data := [] }] }
    pending := [.timeBaseTick] }

/-- What a command leaves, read off its outcome. -/
def after (o : Host.Outcome State Fault Refusal) : State :=
  match o with
  | .next t => t
  | _ => State.reset

/-! ### Terms that WellFormed refuses -/

def longFrame : RawFrame := mkFrame 0x10 (List.replicate 256 0)

theorem test_wellFormed_refuses_long_sample : (Instr.sampleFrame longFrame).wellFormed = false := by decide +kernel
theorem test_wellFormed_refuses_request_as_ack : (Instr.ackFrame (mkRequest 1 2 [])).wellFormed = false := by
  decide +kernel
theorem test_wellFormed_refuses_ack_as_request : (Instr.requestFrame ack0).wellFormed = false := by decide +kernel
theorem test_wellFormed_refuses_good_frame_as_discard : (Instr.inboundDiscard ack0).wellFormed = false := by
  decide +kernel
theorem test_wellFormed_takes_the_right_classes :
    [Instr.sampleFrame (mkSample (samples7 5)), .ackFrame ack0, .requestFrame (mkRequest 1 2 []),
     .inboundDiscard { ack0 with crc := 0 }].all Instr.wellFormed = true := by decide +kernel

/-! ### Bytes on the wire -/

/-- The check value of this CRC-16, over the digits 1 to 9. -/
theorem test_crc_check_value : crc16 [0x31, 0x32, 0x33, 0x34, 0x35, 0x36, 0x37, 0x38, 0x39] = 0x29B1 := by decide +kernel

/-- The Event Frame of the example of chapter 10, up to its CRC. -/
theorem test_event_frame_of_the_example :
    let f : EventFrame := { seq := 5, records :=
      [{ kind := .release .stuck none, channel := 40, time := 15000, loss := 0 },
       { kind := .rebase 1490 .stuck, channel := 40, time := 15310, loss := 0 }] }
    (OutFrame.event f).bytes.take 22 =
      [0xC3, 0x3C, 0x20, 0x12, 0x05, 0x02, 0x20, 0xA1, 0x00, 0x3A, 0x98, 0x00, 0x00, 0x01,
       0xA0, 0xA3, 0x00, 0x3B, 0xCE, 0x5D, 0x20, 0x00] := by decide +kernel

/-- The other frames on OUTLET_TX, up to their CRC, and idle fill. -/
theorem test_outlet_bytes :
    let on (f : OutFrame) : List Byte := ({ up with link := { up.link with lane := some f } } : State).outletTx
    (on (.response { tag := 9, command := 0x13, status := .badValue, replayed := true, data := [] })).take 8 =
      [0xC3, 0x3C, 0x22, 4, 9, 0x13, 0x05, 1] ∧
    (on (.announce (.resync 6) 0x012345)).take 12 = [0xC3, 0x3C, 0x23, 8, 0x63, 0x0A, 1, 4, 6, 0x01, 0x23, 0x45] ∧
    (on (.mirror (samples7 5))).take 11 = [0xC3, 0x3C, 0x21, 7, 7, 5, 2, 0x00, 0x64, 0x8F, 0xFF] ∧
    (on (.event (frame 63))).length = 16 ∧ up.outletTx = [0x00] := by decide +kernel

/-- A byte goes out most significant bit first, and is read back so. -/
theorem test_bit_order :
    byteBits 0xC3 = [true, true, false, false, false, false, true, true] ∧
    bytesOfLine [false, false, true, true, true, true, false, false] = [0x3C] := by decide +kernel

/-- The bytes of a Sample Frame, written out, and its two CRC bytes, the high one first. -/
theorem test_line_bytes_of_sample :
    lineBytes (mkSample (samples7 5)) =
      [0xC3, 0x3C, 0x10, 7, 7, 5, 2, 0x00, 0x64, 0x8F, 0xFF] ++ twoBytes (mkSample (samples7 5)).crc.toNat := by
  decide +kernel

/-- Idle fill, a stray 0xC3, a Sample Frame, and a frame cut short; sync values inside a payload are frame bytes. -/
theorem test_inlet_bytes :
    inletCommands ([0x00, 0xC3] ++ lineBytes (mkSample (samples7 5)) ++ [0x00, 0xC3, 0x3C, 0x10, 9, 1]) =
      [.inletSyncPair, .sampleFrame (mkSample (samples7 5)), .inletSyncPair] ∧
    inletCommands [0xC3, 0x3C, 0x10, 2, 0xC3, 0x3C, 0xAB, 0xCD] =
      [.inletSyncPair, .sampleFrame { kind := 0x10, payload := [0xC3, 0x3C], crc := 0xABCD }] := by decide +kernel

/-- Inbound frames go to the row that the checks give; a frame may follow the last CRC byte at once. -/
theorem test_inbound_bytes :
    inboundCommands (lineBytes ack0 ++ lineBytes (mkRequest 1 2 []) ++ lineBytes { ack0 with crc := 0 }) =
      [.inboundSyncPair, .ackFrame ack0, .inboundSyncPair, .requestFrame (mkRequest 1 2 []), .inboundSyncPair,
       .inboundDiscard { ack0 with crc := 0 }] := by decide +kernel

/-- A Sample Frame written out by R188: source 7, sequence 5, two lanes, value 100, and overrange at 4095. -/
theorem test_sample_frame_read :
    checkSample (mkFrame 0x10 [7, 5, 2, 0x00, 0x64, 0x8F, 0xFF]) = .ok (samples7 5) := by decide +kernel

/-- An Ack Frame written out by R190: resend, acknowledge 41, grant 6. -/
theorem test_ack_frame_read :
    checkInbound (mkFrame 0x31 [0xA9, 0x06]) = .ack { ack := 41, grant := 6, resend := true } := by decide +kernel

/-- The first sample form that R188 forbids. -/
theorem test_sample_form_refused :
    checkSample (mkFrame 0x10 [7, 5, 1, 0x10, 0x00]) = .error .sampleForm := by decide +kernel

/-! ### The whole part, power and time -/

theorem test_HeldPartTakesNoEvent :
    (State.heldIn .pin).power = .held .pin ∧ (∀ k, Instr.describe ≠ .powerReset k) ∧
    Instr.describe ≠ .resetNRelease := ⟨rfl, fun _ h => (nomatch h), fun h => nomatch h⟩

theorem busyPart_runs : busyPart.power = .running := rfl

theorem heldOk_busyPart : busyPart.heldOk := fun cause h => by
  rw [busyPart_runs] at h
  cases h

theorem test_ConfigurationWriters :
    busyPart.heldOk ∧ (∀ k, Instr.timeBaseTick ≠ .powerReset k) ∧ ∃ t, exec .timeBaseTick busyPart = .next t :=
  ⟨heldOk_busyPart, fun _ h => (nomatch h), _, rfl⟩

theorem test_PowerResetAndRelease :
    (State.heldIn .pin).power = .held .pin ∧ (State.heldIn .pin).heldOk ∧ up.power = .running :=
  ⟨rfl, fun _ h => by cases h; rfl, rfl⟩

theorem test_TickCountsTimers : busyPart.power = .running := busyPart_runs

theorem test_tick_wraps : (after (exec .timeBaseTick { up with time := 0xFFFFFF })).time = 0 := by decide +kernel

theorem test_reset_then_release :
    after (exec .resetNRelease (after (exec (.powerReset .power) busyPart))) = { State.reset with
      pending := [.timeBaseTick] } := by decide +kernel

/-! ### Inlet Receiver -/

theorem test_ReceptionBeginsAndEnds :
    let s : State := { up with inlet := { up.inlet with reception := .receiving 2 }
                               link := { up.link with reception := .receiving 2 } }
    s.power = .running ∧ 2 ≤ 2 ∧ s.inlet.reception = .receiving 2 ∧ s.link.reception = .receiving 2 ∧
    checkInbound { ack0 with crc := 0 } = .discard .crc := by decide +kernel

/-- The boundary: 1 lane and 16 lanes are well formed, 0 and 17 are not. -/
theorem test_lane_counts :
    [0, 1, 16, 17].map (fun n => decide (checkSample (mkSample
      { source := 7, sequence := 0, samples := List.replicate n ⟨1, false⟩ }) = .error .laneCount)) =
      [true, false, false, true] := by decide +kernel

theorem test_UntakenFrameIsOnlyCounted :
    routed.power = .running ∧ routed.inlet.swap ≠ .due ∧
    checkSample { mkSample (samples7 5) with crc := 0 } = .error .crc ∧
    checkSample (mkSample { samples7 5 with source := 8 }) = .ok { samples7 5 with source := 8 } ∧
    (∀ a ∈ routed.inlet.active, a.route.source ≠ 8) ∧
    checkSample (mkSample (samples7 133)) = .ok (samples7 133) ∧
    ∃ a, routed.inlet.lookup 7 = some a ∧ a.track.synced = true ∧
      128 ≤ ((samples7 133).sequence - a.track.expected).toNat :=
  ⟨rfl, by decide, by decide +kernel, by decide +kernel, by decide, by decide +kernel, _, rfl, rfl, by decide⟩

theorem test_TakenFrameTracksAndCounts :
    routed.power = .running ∧ routed.inlet.swap ≠ .due ∧ checkSample (mkSample (samples7 132)) = .ok (samples7 132) ∧
    ∃ a, routed.inlet.lookup 7 = some a ∧
      (a.track.synced = true → ((samples7 132).sequence - a.track.expected).toNat ≤ 127) :=
  ⟨rfl, by decide, by decide +kernel, _, rfl, by decide⟩

/-- A frame that finds a due swap. -/
def dueSwap : State :=
  asked { routed with inlet := { routed.inlet with swap := .due, shadow := [{ route7 with source := 8 }] } } 0x23 []

theorem test_TakenFrameTracksAndCounts_due : dueSwap.power = .running ∧ dueSwap.inlet.swap = .due := ⟨rfl, rfl⟩

/-- The later frame is routed by the new bank, and the swap has been answered. -/
theorem test_frame_after_due_swap :
    let t := after (exec (.sampleFrame (mkSample { samples7 5 with source := 8 })) dueSwap)
    t.counters.get .inletTaken = 1 ∧ t.counters.get .unrouted = 0 ∧
    t.mgmt.responses.map (·.status) = [.ok] := by decide +kernel

theorem test_gap_counted :
    let t := after (exec (.sampleFrame (mkSample (samples7 6))) routed)
    t.counters.get .gaps = 1 ∧ t.counters.get .laneMismatches = 1 ∧ t.link.mirror = [samples7 6] := by decide +kernel

theorem test_SilenceExpiryReachesItsRange :
    (∃ a, routed.inlet.lookup 7 = some a ∧ a.track.timer = some 0 ∧ a.route.covers 3 = true ∧ a.route.covers 4 = false) ∧
    ((busyPart.chan 3).config.mode ≠ .off ∧ (busyPart.chan 2).config.mode = .off) ∧
    ∃ s : State, s.power = .running ∧ ∃ a, s.inlet.lookup 7 = some a ∧ a.track.timer ≠ some 0 :=
  ⟨⟨_, rfl, by decide⟩, by decide +kernel,
   { routed with inlet := { routed.inlet with active := [{ route := route7, track := .begin }] } }, rfl, _, rfl, by decide⟩

/-- The engaged channel 3 of the silent route: its RELEASE comes before its SILENT. -/
theorem test_silence_records :
    let t := after (exec (.silenceTimerExpiry 7) busyPart)
    t.events.queue.map (·.kind) = [.onset 1200 1000, .release .silent none, .silent] ∧ t.alert.causes.silent = true ∧
    t.counters.get .recordsCreated = 2 := by decide +kernel

/-! ### Window Engine -/

/-- A window one sample short of full. -/
def shortWindow (overrange : Bool) (minimum : Nat) : Window :=
  { latched := 4, fill := 3, sum := 3000, minimum := minimum, maximum := 1000, overrange := overrange }

def withWindow (w : Window) : Channel :=
  let ch := chanIn .idle (some 1000)
  { ch with window := { ch.window with openWin := some w } }

theorem test_SampleFillsWindow :
    ((on3 (chanIn .silent none)).chan 3).run.state = .silent ∧ (up.chan 3).run.state = .off ∧
    (let ch := (busyPart.chan 3)
     ch.run.state ≠ .off ∧ ch.run.state ≠ .silent ∧ ∃ w, ch.window.openWin = some w ∧ w.fill + 1 < w.latched) ∧
    (let s := on3 (chanIn .idle (some 1000))
     (s.chan 3).run.state ≠ .off ∧ (s.chan 3).run.state ≠ .silent ∧ (s.chan 3).window.openWin = none ∧
     1 < s.profiles[(s.chan 3).config.profile].lengths[(0 : Tier)]) :=
  ⟨by decide +kernel, by decide +kernel, ⟨by decide +kernel, by decide +kernel, _, rfl, by decide +kernel⟩,
   by decide +kernel⟩

/-- The window of `shortWindow` once it holds a sample of 1000. -/
def filled (overrange : Bool) (minimum : Nat) : Window :=
  { latched := 4, fill := 4, sum := 4000, minimum := min minimum 1000, maximum := 1000, overrange := overrange }

/-- Channel 3 in IDLE with its window one sample short of full. -/
def nearlyFull (overrange : Bool) (minimum : Nat) : State := on3 (withWindow (shortWindow overrange minimum))

theorem nearlyFull_fullWith (overrange : Bool) (minimum : Nat) :
    (nearlyFull overrange minimum).fullWith 3 ⟨1000, false⟩ (filled overrange minimum) :=
  .inl ⟨shortWindow overrange minimum, by simp [nearlyFull, on3, withWindow], rfl, by
    simp [filled, shortWindow]⟩

/-- Channel 3 in IDLE under a profile whose windows hold one sample. -/
def oneSample : State :=
  let s := on3 (chanIn .idle (some 1000))
  { s with profiles := s.profiles.set 0 { Profile.initial with lengths := #v[1, 1, 1, 1, 1] } }

def oneSampleWindow (overrange : Bool) : Window :=
  { latched := 1, fill := 1, sum := 4095, minimum := 4095, maximum := 4095, overrange := overrange }

theorem oneSample_fullWith (overrange : Bool) :
    oneSample.fullWith 3 ⟨4095, overrange⟩ (oneSampleWindow overrange) :=
  .inr ⟨by decide +kernel, by decide +kernel, by cases overrange <;> rfl⟩

theorem test_FullWindowRejected :
    ((nearlyFull true 1000).fullWith 3 ⟨1000, false⟩ (filled true 1000) ∧ (filled true 1000).overrange = true ∧
      ((nearlyFull true 1000).chan 3).run.state.takesSamples = true) ∧
    ((nearlyFull false 799).fullWith 3 ⟨1000, false⟩ (filled false 799) ∧
      Profile.initial.spreadLimit < (filled false 799).maximum - (filled false 799).minimum) ∧
    (oneSample.fullWith 3 ⟨4095, true⟩ (oneSampleWindow true) ∧ (oneSampleWindow true).overrange = true ∧
      (oneSample.chan 3).run.state.takesSamples = true) :=
  ⟨⟨nearlyFull_fullWith _ _, rfl, by decide +kernel⟩, ⟨nearlyFull_fullWith _ _, by decide +kernel⟩,
   ⟨oneSample_fullWith _, rfl, by decide +kernel⟩⟩

theorem test_FullWindowAccepted :
    (Profile.initial.b1 ≤ Profile.initial.b2 ∧ Profile.initial.b2 ≤ Profile.initial.b3 ∧
      Profile.initial.b3 ≤ Profile.initial.b4) ∧
    ((nearlyFull false 800).fullWith 3 ⟨1000, false⟩ (filled false 800) ∧ (filled false 800).overrange = false ∧
      (filled false 800).maximum - (filled false 800).minimum ≤ Profile.initial.spreadLimit ∧
      ((nearlyFull false 800).chan 3).run.state.takesSamples = true ∧
      ((nearlyFull false 800).chan 3).config.group = none) ∧
    (oneSample.fullWith 3 ⟨4095, false⟩ (oneSampleWindow false) ∧ (oneSampleWindow false).overrange = false) ∧
    (busyPart.chan 3).config.group = some 0 :=
  ⟨by decide +kernel, ⟨nearlyFull_fullWith _ _, by decide +kernel⟩, ⟨oneSample_fullWith _, rfl⟩, by decide +kernel⟩

theorem test_window_of_one_sample :
    (oneSample.deliverSample 3 ⟨1010, false⟩).counters.windows[3].accepted = 1 := by decide +kernel

/-! ### Channel Logic -/

/-- The profile's thresholds at the boundary: onset at 1120, release below 1060, on baseline 1000. -/
theorem test_AcceptedResultMovesState :
    ((on3 (chanIn .settling none)).chan 3).run.state = .settling ∧
    (∀ ch ∈ [chanIn .idle (some 1000), pending3, active3], ((on3 ch).chan 3).run.baseline = some 1000) ∧
    (1119 : Int) - 1000 < Profile.initial.onset ∧ (Profile.initial.onset : Int) ≤ 1120 - 1000 ∧
    Profile.initial.confirm ≤ pending3.run.confirm + 1 ∧ 1 < Profile.initial.confirm ∧
    (Profile.initial.release : Int) ≤ 1060 - 1000 ∧ (1059 : Int) - 1000 < Profile.initial.release := by decide +kernel

theorem test_onset_after_confirm :
    ((on3 pending3).acceptedMove 3 Profile.initial 1120).events.queue.map (·.kind) = [.onset 1120 1000] := by
  decide +kernel

theorem test_AcceptedResultEndsNoisy :
    (∀ ch ∈ [chanIn .noisy none, chanIn .noisy (some 1000),
        { chanIn .noisy (some 1000) with run := { (chanIn .noisy (some 1000)).run with engaged := true } }],
      ((on3 ch).chan 3).run.state = .noisy) ∧
    (1059 : Int) - 1000 < Profile.initial.release ∧ (Profile.initial.release : Int) ≤ 1060 - 1000 ∧
    (Profile.initial.onset : Int) ≤ 1120 - 1000 ∧ 1 < Profile.initial.confirm ∧
    ({ Profile.initial with confirm := 1 } : Profile).confirm ≤ 1 ∧ (1119 : Int) - 1000 < Profile.initial.onset := by
  decide +kernel

theorem test_RejectedResultMovesState :
    (∀ x ∈ [ChanState.settling, .idle, .pending, .active, .noisy], ((on3 (chanIn x none)).chan 3).run.state = x) ∧
    Profile.initial.rejectLimit ≤ 4 ∧ 3 < Profile.initial.rejectLimit := by decide +kernel

/-- The NOISY record is counted as created and reported. -/
theorem test_noisy_reported :
    let t := (on3 { chanIn .active (some 1000) with run := { (chanIn .active (some 1000)).run with rejectRun := 4 } }).takeRejected
      3 Profile.initial 300
    t.events.queue.map (·.kind) = [.noisy 300] ∧ t.alert.causes.noisy = true ∧ t.alert.line = true ∧
    t.counters.get .recordsCreated = 1 := by decide +kernel

theorem test_ValuePublication :
    (let ch := (on3 active3).chan 3
     ch.config.mode = .values ∧ ch.run.state = .active ∧ ch.run.lastValue = none) ∧
    (up.chan 3).config.mode ≠ .values := by decide +kernel

theorem test_ChannelEventsAndTheirRecords :
    ((on3 active3).chan 3).config.mode ≠ .off ∧ ((on3 active3).chan 3).window.lastMean = some 1000 ∧
    ((on3 active3).chan 3).run.engaged = true ∧ ((on3 (chanIn .silent (some 1000))).chan 3).run.state = .silent ∧
    ((on3 (chanIn .silent (some 1000))).chan 3).run.baseline = some 1000 ∧
    ((on3 (chanIn .silent none)).chan 3).run.baseline = none ∧ (up.chan 3).run.state ≠ .silent := by decide +kernel

theorem test_DriftStep :
    let ch := (busyPart.chan 3)
    ch.run.baseline = some 1000 ∧ ch.window.lastMean = some 1200 := by decide +kernel

theorem test_ChannelTimerExpiries :
    let s := on3 { chanIn .idle (some 1000) with run := { (chanIn .idle (some 1000)).run with quiet := some 0 } }
    s.power = .running ∧ (s.chan 3).run.quiet = some 0 ∧ ((on3 active3).chan 3).run.engaged = true ∧
    ((on3 active3).chan 3).run.maxActive = some 0 ∧ (up.chan 3).run.quiet ≠ some 0 ∧
    (up.chan 3).run.engaged = false := by decide +kernel

theorem test_stuck_then_release :
    (after (exec (.maxActiveExpiry 3) (on3 active3))).events.queue.map (·.kind) =
      [.stuck 1000, .release .stuck none] := by decide +kernel

/-! ### Event Unit -/

theorem test_QueuedValueCoalesces :
    (eventsOf [onsetOf3, valueOf3, onsetOf3] .initial).events.queue = [onsetOf3] ++ valueOf3 :: [onsetOf3] ∧
    valueOf3.isValueOf 3 = true ∧ ∀ r ∈ [onsetOf3] ++ [onsetOf3], r.isValueOf 3 = false := by decide +kernel

theorem test_HeldValueCoalesces :
    let s := eventsOf [onsetOf3] { Delivery.initial with held := [onsetOf3, valueOf3, onsetOf3] }
    let s' := eventsOf [onsetOf3] { Delivery.initial with held := [onsetOf3, onsetOf3, onsetOf3] }
    (∀ r ∈ s.events.queue, r.isValueOf 3 = false) ∧
    (s.events.del 3).held = [onsetOf3] ++ valueOf3 :: [onsetOf3] ∧ valueOf3.isValueOf 3 = true ∧
    (∀ r ∈ [onsetOf3] ++ [onsetOf3], r.isValueOf 3 = false) ∧
    (s'.events.del 3).held.length = 3 ∧ (∀ r ∈ (s'.events.del 3).held, r.isValueOf 3 = false) ∧
    (s'.events.del 3).inFlight = false := by decide +kernel

theorem test_ValueInFlightStages :
    let s := eventsOf [onsetOf3] { Delivery.initial with held := [onsetOf3], inFlight := true }
    (∀ r ∈ s.events.queue, r.isValueOf 3 = false) ∧ (∀ r ∈ (s.events.del 3).held, r.isValueOf 3 = false) ∧
    (s.events.del 3).inFlight = true := by decide +kernel

theorem test_RecordEntersQueueOrHeldList :
    (∀ s : State, s.events.passes onsetOf3) ∧
    (let s := eventsOf [onsetOf3] { Delivery.initial with held := [onsetOf3] }
     valueOf3.isValue = true ∧ s.events.passes valueOf3) ∧
    (let d := (eventsOf [] { Delivery.initial with held := [onsetOf3, onsetOf3] }).events.del onsetOf3.channel
     d.held ≠ [] ∧ d.held.length < 3) ∧
    3 ≤ ((eventsOf [] { Delivery.initial with held := List.replicate 3 onsetOf3 }).events.del onsetOf3.channel).held.length ∧
    (let s := eventsOf (List.replicate 95 onsetOf3) .initial
     (s.events.del onsetOf3.channel).held = [] ∧ s.events.queue.length < 96) ∧
    (let s := eventsOf (List.replicate 96 onsetOf3) .initial
     (s.events.del onsetOf3.channel).held = [] ∧ 96 ≤ s.events.queue.length) :=
  ⟨fun _ h => (nomatch h), ⟨rfl, fun _ => by decide +kernel⟩, by decide +kernel, by decide +kernel, by decide +kernel,
   by decide +kernel⟩

theorem test_RecordsCountedAndCausesReported :
    (eventsOf [] { Delivery.initial with held := List.replicate 3 onsetOf3 }).events.discards
      { onsetOf3 with time := 0 } ∧
    (¬ up.events.discards onsetOf3) ∧ up.alert.mode = .pulse ∧
    ({ up.alert with mode := .latch } : Alert).mode = .latch ∧ ({ up.alert with mode := .off } : Alert).mode = .off :=
  ⟨⟨by decide +kernel, fun h => (nomatch h)⟩, fun h => absurd h.1 (by decide +kernel), by decide +kernel⟩

theorem test_urgent_record_and_loss :
    let s := eventsOf [] { Delivery.initial with held := List.replicate 3 onsetOf3 }
    (s.hand 3 .silent).alert.causes = { CauseSet.empty with silent := true, loss := true } ∧
    (s.hand 3 .resumed).alert.causes = { CauseSet.empty with loss := true } ∧
    (up.hand 3 .resumed).alert = up.alert := by decide +kernel

theorem test_TakeFlagsAndServes :
    (eventsOf [valueOf3] .initial).events.deferred = [] ∧
    (let e : Events := { (eventsOf [] { Delivery.initial with held := [onsetOf3] }).events with deferred := [3] }
     e.deferred = 3 :: [] ∧ (e.del 3).held = onsetOf3 :: [] ∧ onsetOf3.channel = 3) := by decide +kernel

theorem test_DeliveredValueReleasesStaged :
    onsetOf3.isValue = false ∧ valueOf3.isValue = true ∧ (up.events.del valueOf3.channel).staged = none ∧
    (busyPart.events.del valueOf3.channel).staged = some { value := 1300, tier := 1, time := 80 } := by decide +kernel

/-- A staged value that finds its Held list full, and one that does not. -/
theorem test_DeliveredValueReleasesStaged_discard :
    let new : Record := { kind := .value 1300 1, channel := 3, time := 80, loss := 0 }
    let d : Delivery :=
      { held := [onsetOf3, onsetOf3, onsetOf3], pendingLoss := 0, inFlight := true,
        staged := some { value := 1300, tier := 1, time := 80 } }
    (let e := (eventsOf [] d).events
     (e.setDel 3 { e.del 3 with inFlight := false, staged := none }).discards new) ∧
    ¬ (busyPart.events.setDel 3 { busyPart.events.del 3 with inFlight := false, staged := none }).discards new := by
  simp only [Events.discards, Events.passes]
  decide +kernel

/-- Two frames are told oldest first. -/
theorem test_framesDelivered_order :
    let s := eventsOf [] { held := [], pendingLoss := 0, inFlight := true, staged := some ⟨1300, 1, 80⟩ }
    let u : State := { s with events := s.events.setDel 5 { s.events.del 5 with inFlight := true, staged := some ⟨9, 0, 81⟩ } }
    (u.framesDelivered [⟨0, [{ valueOf3 with channel := 5 }]⟩, ⟨1, [valueOf3]⟩]).events.queue.map (·.kind) =
      [.value 9 0, .value 1300 1] := by decide +kernel

/-! ### Outlet link -/

theorem test_AckInDownAndStalled :
    State.reset.power = .running ∧ State.reset.link.state = .down ∧
    checkInbound ack0 = .ack { ack := 0, grant := 3, resend := false } ∧
    (let s : State := { inFlight2 with link := { inFlight2.link with state := .stalled, ackTimer := none } }
     s.power = .running ∧ s.link.state = .stalled ∧ s.link.replay = [frame 0] ++ [frame 1] ∧
     ([frame 0] : List EventFrame) = [] ++ [frame 0] ∧ (frame 0).seq = 0 ∧ (∀ x ∈ ([] : List EventFrame), x.seq ≠ 0) ∧
     s.link.replay = [] ++ [frame 0, frame 1] ∧ ∀ x ∈ [frame 0, frame 1], x.seq ≠ 2) := by decide +kernel

theorem test_AckInUp :
    inFlight2.power = .running ∧ inFlight2.link.state = .up ∧
    checkInbound ack0 = .ack { ack := 0, grant := 3, resend := false } ∧
    inFlight2.link.replay = [] ++ frame 0 :: [frame 1] ∧ (frame 0).seq = 0 ∧
    (∀ x ∈ ([] : List EventFrame), x.seq ≠ 0) ∧
    checkInbound (mkAck 2 0 true) = .ack { ack := 2, grant := 0, resend := true } ∧
    (∀ x ∈ inFlight2.link.replay, x.seq ≠ 2) ∧ inFlight2.link.roundLeft ≤ inFlight2.link.replay.length := by
  decide +kernel

theorem test_ack_frees_frame_and_adds_grant :
    let t := after (exec (.ackFrame ack0) inFlight2)
    t.link.replay = [frame 1] ∧ t.link.credits = 5 := by decide +kernel

theorem test_LinkAndHoldTimerExpiries :
    inFlight2.power = .running ∧ inFlight2.link.state = .up ∧ inFlight2.link.ackTimer = some 0 ∧
    inFlight2.link.roundCount < 3 ∧
    (let s : State := { inFlight2 with link := { inFlight2.link with roundCount := 3 } }
     s.link.state = .up ∧ s.link.ackTimer = some 0 ∧ s.link.roundCount = 3) ∧
    (let s : State := { State.reset with link := { State.reset.link with announceTimer := some 0 } }
     s.power = .running ∧ s.link.state = .down ∧ s.link.announceTimer = some 0) ∧
    (let s : State := { up with alert := { up.alert with line := true, holdTimer := some 0 } }
     s.power = .running ∧ s.alert.holdTimer = some 0) := by decide +kernel

theorem test_TransmissionCompleteFreesLane :
    let s : State := { up with link := { up.link with lane := some (.mirror (samples7 5)) } }
    let r : State := { up with link := { up.link with lane := some (.mirror (samples7 5)), laneResync := some 4 } }
    s.power = .running ∧ s.link.lane ≠ none ∧ s.link.laneResync = none ∧ r.power = .running ∧ r.link.lane ≠ none ∧
    r.link.laneResync = some 4 := by decide +kernel

theorem test_WaitingFramesSent :
    (let s : State := { up with mgmt := { up.mgmt with responses :=
       [{ tag := 9, command := 0x40, status := .ok, replayed := false, data := [] }] } }
     s.power = .running ∧ s.link.lane = none ∧ s.mgmt.responses.length = 1) ∧
    (State.reset.link.lane = none ∧ State.reset.mgmt.responses = [] ∧ State.reset.link.state = .down ∧
     State.reset.link.announceDue = true) ∧
    (let s : State := { inFlight2 with link := { inFlight2.link with roundLeft := 1 } }
     s.link.lane = none ∧ s.mgmt.responses = [] ∧ s.link.state = .up ∧
     s.link.replay = [frame 0] ++ frame 1 :: [] ∧ s.link.roundLeft = ([] : List EventFrame).length + 1) ∧
    (let s : State := { up with link := { up.link with mirror := [samples7 5] } }
     s.link.lane = none ∧ s.mgmt.responses = [] ∧ s.link.state = .up ∧ s.link.roundLeft = 0 ∧ s.events.queue = [] ∧
     s.link.mirror = samples7 5 :: []) ∧
    ((dueSwap.link.lane = none) ∧ ∀ f : OutFrame, ({ up with link := { up.link with lane := some f } } : State).link.lane =
      some f) := ⟨by decide +kernel, by decide +kernel, by decide +kernel, by decide +kernel, rfl, fun _ => rfl⟩

/-- A waiting response goes first: the other rows change nothing. -/
theorem test_response_first :
    let r : Response := { tag := 9, command := 1, status := .ok, replayed := false, data := [] }
    let s : State := { up with
      mgmt := { up.mgmt with responses := [r] }, link := { up.link with mirror := [samples7 5], roundLeft := 1 } }
    ([Instr.announceFrameSend, .retransmittedFrame, .newEventFrame, .mirrorFrameSend].all fun i =>
      (after (exec i s)).link.lane == none) = true ∧
    (after (exec .responseFrameSend s)).link.lane = some (.response r) := by decide +kernel

theorem test_NewEventFrameBuiltAgainstCredit :
    (let s := eventsOf [onsetOf3] .initial
     s.power = .running ∧ s.link.lane = none ∧ s.mgmt.responses = [] ∧ s.link.state = .up ∧ s.link.roundLeft = 0 ∧
     1 ≤ s.link.credits ∧ s.link.replay.length < 4 ∧ s.events.queue ≠ []) ∧
    State.reset.link.credits = 0 ∧ ∃ t, exec .newEventFrame State.reset = .next t :=
  ⟨by decide +kernel, rfl, _, rfl⟩

/-! ### Management -/

theorem test_RestartKeepsConfiguration :
    busyPart.power = .running ∧ checkInbound (mkRequest 9 0x41 []) = .request 9 0x41 [] := by decide +kernel

/-- A restart finds the banks of a due swap exchanged, and discards a swap that waits. -/
theorem test_restart_and_swap :
    let restart : Instr := .requestFrame (mkRequest 9 0x41 [])
    ((after (exec restart dueSwap)).inlet.active.map (·.route.source)) = [8] ∧
    ((after (exec restart { dueSwap with inlet := { dueSwap.inlet with swap := .waiting } })).inlet.active.map
      (·.route.source)) = [7] := by decide +kernel

theorem test_RequestArrival :
    checkInbound (mkRequest 7 0x01 []) = .request 7 0x01 [] ∧ ((0x01 : Byte) = 0x41 → ([] : List Byte) ≠ []) ∧
    (∀ q ∈ busyPart.mgmt.requests, q.tag ≠ 7) ∧ (∀ e ∈ busyPart.mgmt.cache, e.tag = 7 → e.command ≠ 0x01) ∧
    busyPart.mgmt.requests.length < 4 ∧
    (∃ q ∈ busyPart.mgmt.requests, q.tag = 9) ∧
    checkInbound (mkRequest 9 0x01 []) = .request 9 0x01 [] ∧
    busyPart.mgmt.cache = [] ++ { tag := 8, command := 0x01, status := .ok, data := [] } :: [] ∧
    checkInbound (mkRequest 8 0x01 []) = .request 8 0x01 [] ∧ (∀ q ∈ busyPart.mgmt.requests, q.tag ≠ 8) := by
  decide +kernel

/-- A full Request Queue and a full Response Queue. -/
theorem test_RequestArrival_full :
    let r : Response := { tag := 1, command := 1, status := .ok, replayed := false, data := [] }
    let q (t : Byte) : Request := { tag := t, command := 1, params := [] }
    let s : State := { up with mgmt := { requests := [q 1, q 2, q 3, q 4], responses := [r, r, r], cache := [] } }
    let w : State := { s with inlet := { s.inlet with swap := .waiting, reception := .receiving 0 } }
    (∀ x ∈ s.mgmt.requests, x.tag ≠ 9) ∧ 4 ≤ s.mgmt.requests.length ∧
    ¬ 4 ≤ s.mgmt.responses.length + (if s.inlet.swap = .none then 0 else 1) ∧
    4 ≤ w.mgmt.responses.length + (if w.inlet.swap = .none then 0 else 1) := by decide +kernel

theorem asked_ready (command : Byte) (params : List Byte) :
    (asked up command params).ready { tag := 9, command := command, params := params } [] :=
  ⟨rfl, rfl, Nat.zero_lt_succ _, rfl⟩

theorem test_BadLengthAndUnknownAnswers :
    (asked up 0x13 []).ready { tag := 9, command := 0x13, params := [] } [] ∧
    executionRow .getChannel = some (0x13, 1) ∧ ([] : List Byte).length ≠ 1 ∧
    (asked up 0x77 []).ready { tag := 9, command := 0x77, params := [] } [] ∧
    (∀ i code length, executionRow i = some (code, length) → (0x77 : Byte) ≠ code) ∧
    (asked up 0x41 [1]).ready { tag := 9, command := 0x41, params := [1] } [] :=
  ⟨asked_ready _ _, rfl, by decide, asked_ready _ _,
   fun i _ _ h => by cases i <;> simp [executionRow] at h <;> rw [← h.1] <;> decide, asked_ready _ _⟩

theorem test_RefusedRequestChangesNothing :
    (executionRow .getChannel).isSome ∧ (asked up 0x13 [64]).ready { tag := 9, command := 0x13, params := [64] } [] ∧
    (∃ t, exec .getChannel (asked up 0x13 [64]) = .next t ∧
      t.mgmt = (asked up 0x13 [64]).mgmt.answered { tag := 9, command := 0x13, params := [64] } [] .badValue []) ∧
    Status.badValue ≠ .ok ∧
    ({ up with inlet := { up.inlet with swap := .waiting } } : State).inlet.swap ≠ .none ∧
    4 ≤ (List.replicate 4 (0 : Nat)).length :=
  ⟨by decide, asked_ready _ _, ⟨_, rfl, by decide +kernel⟩, by decide, by decide, by decide⟩

theorem test_ReadRequestsAnswered :
    (∀ command params, (asked up command params).ready { tag := 9, command := command, params := params } []) ∧
    (15 : Byte).toNat = (15 : Fin 16).val ∧ 16 ≤ (16 : Byte).toNat ∧ 2 ≤ (2 : Byte).toNat ∧ 64 ≤ (64 : Byte).toNat :=
  ⟨asked_ready, by decide⟩

theorem test_getChannel_data :
    (after (exec .getChannel (asked busyPart 0x13 [3]))).mgmt.responses.map (·.data) =
      [[3, 2, 0, 1, 0, 4, 0x6F, 0x03, 0xE8, 0x04, 0xB0, 2, 8, 2, 0, 0, 0, 0, 0, 0, 0, 0, 0, 0]] := by decide +kernel

theorem test_getRoutes_data :
    (after (exec .getRoutes (asked routed 0x24 [0]))).mgmt.responses.map (·.data) =
      [[1, 7, 0, 4, 0x0B, 0, 50, 5, 0, 0]] := by decide +kernel

theorem test_describe_data :
    (after (exec .describe (asked up 0x01 []))).mgmt.responses.map (·.data) =
      [[0x63, 0x0A, 1, 64, 16, 8, 24, 96, 1, 0, 0, 0, 0]] := by decide +kernel

theorem test_SetProfileReplacesOrRefuses :
    (asked up 0x10 (profileData 2 Profile.initial)).ready
      { tag := 9, command := 0x10, params := profileData 2 Profile.initial } [] ∧
    (profileData 2 Profile.initial).length = 28 ∧
    parseProfile (profileData 2 Profile.initial) = some (2, Profile.initial) ∧
    parseProfile (profileData 2 { Profile.initial with release := 120 }) = none ∧
    profileBytes 2 Profile.initial = profileData 2 Profile.initial ∧ (15 : Byte).toNat = (15 : Fin 16).val :=
  ⟨asked_ready _ _, by decide +kernel⟩

theorem test_SetChannelCases :
    (asked busyPart 0x12 [3, 0, 0, 0, 0]).ready { tag := 9, command := 0x12, params := [3, 0, 0, 0, 0] } [] ∧
    channelRequestBytes 3 { mode := .off, profile := 0, group := none, polarity := .rising } = [3, 0, 0, 0, 0] ∧
    (busyPart.chan 3).config.mode ≠ .off ∧
    channelRequestBytes 63 { mode := .values, profile := 15, group := some 7, polarity := .falling } = [63, 2, 15, 8, 1] ∧
    (busyPart.chan 63).config.mode = .off ∧
    ((63 : Byte).toNat < 64 ∧ (2 : Byte).toNat ≤ 2 ∧ (15 : Byte).toNat ≤ 15 ∧ (8 : Byte).toNat ≤ 8 ∧
      (1 : Byte).toNat ≤ 1) :=
  ⟨⟨rfl, rfl, by decide, rfl⟩, by decide +kernel⟩

theorem test_GroupChangeMovesMember :
    let t := busyPart.setConfig 3 { (busyPart.chan 3).config with group := some 7 }
    t.groups[(0 : Fin 8)] = { tier := 0, members := 0 } ∧ t.groups[(7 : Fin 8)] = { tier := 0, members := 1 } := by
  decide +kernel

theorem test_RebaseAndChannelRefusals :
    (asked busyPart 0x14 [3]).ready { tag := 9, command := 0x14, params := [3] } [] ∧
    ((3 : Byte).toNat = (3 : ChanNo).val ∧ (busyPart.chan 3).config.mode ≠ .off) ∧
    ((63 : Byte).toNat = (63 : ChanNo).val ∧ (busyPart.chan 63).config.mode = .off) ∧ 64 ≤ (64 : Byte).toNat ∧
    (asked busyPart 0x12 [0, 0, 0, 9, 0]).ready { tag := 9, command := 0x12, params := [0, 0, 0, 9, 0] } [] ∧
    9 ≤ (9 : Byte).toNat :=
  ⟨⟨rfl, rfl, by decide, rfl⟩, by decide +kernel, by decide +kernel, by decide, ⟨rfl, rfl, by decide, rfl⟩, by decide⟩

theorem bankOk_routed : bankOk routed.inlet.shadow := ⟨by decide, by decide, by decide⟩

theorem test_RouteEdits :
    (asked routed 0x20 [8, 4, 16, 0, 0, 0]).ready { tag := 9, command := 0x20, params := [8, 4, 16, 0, 0, 0] } [] ∧
    ((4 : Byte).toNat = (4 : ChanNo).val ∧ 1 ≤ (16 : Byte).toNat ∧ (16 : Byte).toNat ≤ 16 ∧
      (48 : Byte).toNat + (16 : Byte).toNat ≤ 64 ∧ (0 : Byte).toNat ≤ 1) ∧
    64 < (49 : Byte).toNat + (16 : Byte).toNat ∧ bankOk (asked routed 0x20 [8, 4, 16, 0, 0, 0]).inlet.shadow ∧
    (∀ x ∈ routed.inlet.shadow, x.source ≠ 8) ∧
    (∃ x ∈ routed.inlet.shadow, x.source ≠ 8 ∧ ∃ c, x.covers c = true ∧
      ({ source := 8, base := 3, lanes := 1, mirror := false, silence := 0 } : Route).covers c = true) ∧
    (∃ x ∈ routed.inlet.shadow, x.source = 7) :=
  ⟨⟨rfl, rfl, by decide, rfl⟩, by decide +kernel, by decide +kernel, bankOk_routed, by decide, by decide +kernel, by decide⟩

/-- A full bank: 24 routes of one channel each, and a 25th that shares no channel with them. -/
theorem test_RouteEdits_full :
    let bank : List Route := (List.finRange 24).map fun k =>
      { source := BitVec.ofNat 8 k.val, base := ⟨k.val, by omega⟩, lanes := 1, mirror := false, silence := 0 }
    let r : Route := { source := 30, base := 40, lanes := 1, mirror := false, silence := 0 }
    bankOk bank ∧ bank.length = 24 ∧ (∀ x ∈ bank, x.source ≠ r.source) ∧ ∀ x ∈ bank, x.overlaps r = false := by
  unfold bankOk
  decide +kernel

theorem routesOk_routed : routed.routesOk :=
  ⟨bankOk_routed, bankOk_routed, by
    intro a ha
    simp only [routed, List.mem_singleton] at ha
    subst ha
    unfold ActiveRoute.trackingOk
    decide +kernel⟩

/-- The engaged channel 3 loses its lane: its RELEASE(UNROUTED) is created and its open window counted. -/
theorem test_swap_releases_engaged :
    let s : State := asked { busyPart with inlet := { busyPart.inlet with shadow := [] } } 0x23 []
    let t := after (exec .swapRoutes s)
    t.events.queue.map (·.kind) = [.onset 1200 1000, .release .unrouted none] ∧
    t.counters.windows[3].abandoned = 1 := by decide +kernel

theorem test_SwapTakenAtFrameBoundary :
    (asked routed 0x23 []).routesOk ∧
    (asked routed 0x23 []).ready { tag := 9, command := 0x23, params := [] } [] ∧
    (asked routed 0x23 []).inlet.reception = .hunting ∧
    (let s := asked { routed with inlet := { routed.inlet with reception := .receiving 0 } } 0x23 []
     s.inlet.reception ≠ .hunting) ∧
    (let s := asked { routed with inlet := { routed.inlet with swap := .due } } 0x23 []
     s.power = .running ∧ s.inlet.swap = .due ∧
     s.mgmt.requests = { tag := 9, command := 0x23, params := [] } :: []) :=
  ⟨routesOk_routed, ⟨rfl, rfl, by decide, rfl⟩, rfl, by decide, by decide +kernel⟩

theorem test_AlertRequests :
    (∀ m h, (asked up 0x30 [m, h]).ready { tag := 9, command := 0x30, params := [m, h] } []) ∧
    (asked up 0x31 []).ready { tag := 9, command := 0x31, params := [] } [] ∧
    3 ≤ (3 : Byte).toNat ∧ (2 : Byte).toNat = 2 ∧ (1 : Byte).toNat ≠ 0 := ⟨fun _ _ => asked_ready _ _, asked_ready _ _, by decide⟩

theorem test_CountersRaisedAndCleared :
    (∀ kind b, (asked up 0x33 [kind, b]).ready { tag := 9, command := 0x33, params := [kind, b] } []) ∧
    2 ≤ (2 : Byte).toNat ∧ 64 ≤ (64 : Byte).toNat ∧ (63 : Byte).toNat = (63 : ChanNo).val :=
  ⟨fun _ _ => asked_ready _ _, by decide⟩

theorem test_counter_stops_at_65535 :
    (((CounterBank.initial.raiseBy .stale 65534).raiseBy .stale 2).get .stale) = 65535 := by decide +kernel

theorem test_ResyncDiscardsFrames :
    (asked busyPart 0x40 []).ready { tag := 9, command := 0x40, params := [] } [] ∧
    (∀ c, ((asked inFlight2 0x40 []).events.del c).staged = none) :=
  ⟨⟨rfl, rfl, by decide, rfl⟩, by decide +kernel⟩

theorem test_resync_releases_staged :
    let t := after (exec .resync (asked busyPart 0x40 []))
    t.link.replay = [] ∧ t.counters.get .resyncDiscards = 1 ∧ (t.events.del 3).inFlight = false ∧
    t.events.queue.map (·.kind) = [.onset 1200 1000, .value 1300 1] := by decide +kernel

/-! ### The invariants, met by a state in which every block holds something -/

theorem busyPart_steps : ∃ t, step busyPart = .next t := ⟨_, rfl⟩

theorem test_ProfilesStayValid :
    (∀ n : Fin 16, busyPart.profiles[n].release < busyPart.profiles[n].onset ∧
      busyPart.profiles[n].b1 ≤ busyPart.profiles[n].b2 ∧ busyPart.profiles[n].b2 ≤ busyPart.profiles[n].b3 ∧
      busyPart.profiles[n].b3 ≤ busyPart.profiles[n].b4) ∧
    (∃ t, step busyPart = .next t) ∧
    (let block := profileData 2 { Profile.initial with release := 120 }
     (asked up 0x10 block).ready { tag := 9, command := 0x10, params := block } [] ∧ block.length = 28 ∧
     ¬ (profileFields block false).release < (profileFields block false).onset) :=
  ⟨by decide +kernel, busyPart_steps, asked_ready _ _, by decide +kernel⟩

theorem test_StepKeepsChannelsConsistent : busyPart.channelsConsistent ∧ ∃ t, step busyPart = .next t :=
  ⟨by unfold State.channelsConsistent Channel.consistent; decide +kernel, busyPart_steps⟩

theorem test_StepKeepsLevelsInRange : busyPart.levelsInRange ∧ ∃ t, step busyPart = .next t :=
  ⟨by unfold State.levelsInRange State.profilesValid Channel.inRange Window.inRange; decide +kernel, busyPart_steps⟩

theorem test_StepKeepsGroupsConsistent : busyPart.groupsConsistent ∧ ∃ t, step busyPart = .next t :=
  ⟨by unfold State.groupsConsistent; decide +kernel, busyPart_steps⟩

theorem test_StepKeepsRoutesOk : routed.routesOk ∧ ∃ t, step routed = .next t := ⟨routesOk_routed, _, rfl⟩

theorem test_StepKeepsEventsOrdered : busyPart.events.ordered ∧ ∃ t, step busyPart = .next t :=
  ⟨by unfold Events.ordered; decide +kernel, busyPart_steps⟩

theorem test_StepKeepsOneValueEach : busyPart.events.ordered ∧ busyPart.oneValueEach ∧ ∃ t, step busyPart = .next t :=
  ⟨test_StepKeepsEventsOrdered.1, by unfold State.oneValueEach; decide +kernel, busyPart_steps⟩

theorem mgmtOk_busyPart : busyPart.mgmtOk := by
  unfold State.mgmtOk
  decide +kernel

theorem test_StepKeepsLinkOk : busyPart.mgmtOk ∧ busyPart.linkOk ∧ ∃ t, step busyPart = .next t :=
  ⟨mgmtOk_busyPart, by
    unfold State.linkOk State.resyncPending
    exact ⟨by decide +kernel, by decide +kernel, ⟨by decide +kernel, trivial⟩, by decide +kernel⟩, busyPart_steps⟩

theorem test_StepKeepsMgmtOk : busyPart.mgmtOk ∧ ∃ t, step busyPart = .next t := ⟨mgmtOk_busyPart, busyPart_steps⟩

theorem test_StepKeepsAlertAndHeld : busyPart.alert.ok ∧ busyPart.heldOk ∧ ∃ t, step busyPart = .next t :=
  ⟨by unfold Alert.ok; decide +kernel, heldOk_busyPart, busyPart_steps⟩

end Sys2Proof.Tests
end

section
/-! SUPPORT. A ready request and its answer (R161–R163), and the bytes of a parameter block that name a small number
(R191). -/

namespace Sys2Proof.Machine

/-! ### A ready request and its owner's answer (R161–R163) -/

section
variable {s : State} {q : Request} {rest : List Request} (ready : s.ready q rest)
include ready

theorem State.ready.head : s.mgmt.requests = q :: rest := ready.2.2.2

variable {i : Instr} {code : Byte} {owner : State → List Byte → Answer}
  (row : exec i s = .next (s.whileOn (·.execute (· == code) owner))) (named : q.command = code)
include row named

/-- What the owner refuses is answered, and nothing else changes (R153). -/
theorem exec_refused {x : Status} (answer : owner s q.params = s.refuse x) :
    exec i s = .next (s.answered q rest x []) := by
  rw [row, State.execute_of_ready ready (is := (· == code)) owner (beq_iff_eq.mpr named), answer,
    State.complete_refuse ready.head]

/-- What the owner carries out is answered OK with its data, on the state that the owner leaves (R163). -/
theorem exec_accepted {u : State} {data : List Byte} (answer : owner s q.params = u.accept data)
    (mgmt : u.mgmt = s.mgmt) : exec i s = .next (u.answered q rest .ok data) := by
  rw [row, State.execute_of_ready ready (is := (· == code)) owner (beq_iff_eq.mpr named), answer]
  exact congrArg _ (State.complete_eq_answered (mgmt ▸ ready.head) .ok data)

end

/-! ### Bytes that name a number, a channel, a bank, a counter set (R191) -/

theorem toFin_of_eq {n k : Nat} {i : Fin n} (h : k = i.val) : toFin n k = some i := by
  subst h
  simp [toFin]

theorem toFin_of_le {n k : Nat} (h : n ≤ k) : toFin n k = none := by
  simp [toFin, Nat.not_lt.mpr h]

theorem channelOf_of_eq {b : Byte} {c : ChanNo} (h : b.toNat = c.val) : channelOf b = some c := toFin_of_eq h

theorem channelOf_of_le {b : Byte} (h : 64 ≤ b.toNat) : channelOf b = none := toFin_of_le h

/-- A byte that is large is none of the small codes. -/
theorem byte_ne_of_lt {b k : Byte} (h : k.toNat < b.toNat) : b ≠ k := by
  rintro rfl
  exact Nat.lt_irrefl _ h

end Sys2Proof.Machine
end

section
/-! SUPPORT. The Channel, Group and Profile Tables across a command: which commands leave the three alone, and the rule
by which a property of the three is proved of every step. -/

namespace Sys2Proof.Machine

/-! ### The three tables as they were -/

/-- Channel Table, Group Table and Profile Table of `t` are those of `s`. -/
structure SameTables (s t : State) : Prop where
  channels : t.channels = s.channels
  groups : t.groups = s.groups
  profiles : t.profiles = s.profiles

theorem SameTables.refl (s : State) : SameTables s s := ⟨rfl, rfl, rfl⟩

theorem SameTables.trans {s t u : State} (h : SameTables s t) (k : SameTables t u) : SameTables s u :=
  ⟨k.channels.trans h.channels, k.groups.trans h.groups, k.profiles.trans h.profiles⟩

theorem SameTables.chan {s t : State} (h : SameTables s t) (c : ChanNo) : t.chan c = s.chan c :=
  State.chan_congr h.channels c

theorem EventSide.sameTables {s t : State} (h : EventSide s t) : SameTables s t := ⟨h.channels, h.groups, h.profiles⟩

theorem HandsOnly.sameTables {s t : State} (h : HandsOnly s t) : SameTables s t := ⟨h.channels, h.groups, h.profiles⟩

theorem sameTables_modLink (s : State) (f : Link → Link) : SameTables s (s.modLink f) := ⟨rfl, rfl, rfl⟩

theorem sameTables_modInlet (s : State) (f : Inlet → Inlet) : SameTables s (s.modInlet f) := ⟨rfl, rfl, rfl⟩

theorem sameTables_setMgmt (s : State) (m : Mgmt) : SameTables s { s with mgmt := m } := ⟨rfl, rfl, rfl⟩

theorem sameTables_raise (s : State) (k : GlobalCounter) : SameTables s (s.raise k) := ⟨rfl, rfl, rfl⟩

theorem sameTables_raiseWindows (s : State) (c : ChanNo) (f : WindowCounts → WindowCounts) :
    SameTables s (s.raiseWindows c f) := ⟨rfl, rfl, rfl⟩

theorem sameTables_hand (s : State) (c : ChanNo) (k : RecordKind) : SameTables s (s.hand c k) :=
  (handsOnly_hand s c k).sameTables

theorem sameTables_complete (s : State) (x : Status) (d : List Byte) : SameTables s (s.complete x d) :=
  ⟨s.complete_channels x d, s.complete_groups x d, s.complete_profiles x d⟩

theorem sameTables_answerAtArrival (s : State) (r : Response) (k : Option GlobalCounter) :
    SameTables s (s.answerAtArrival r k) := by constructor <;> simp

/-- An Ack Frame moves the link, and what the Event Unit delivers; no table (R129, R136, R144). -/
theorem sameTables_takeAck (s : State) (ack : BitVec 6) (grant : Nat) (resend : Bool) :
    SameTables s (s.takeAck ack grant resend) := by
  have acked : SameTables s (s.applyAck ack) := (sameTables_modLink s _).trans (eventSide_applyAck s ack).sameTables
  unfold State.takeAck
  split
  · exact sameTables_modLink s _
  · have progressed : SameTables s
        (if ackedCount s.link.replay ack = 0 then s.applyAck ack else (s.applyAck ack).modLink Link.progress) := by
      split
      · exact acked
      · exact acked.trans (sameTables_modLink _ _)
    have granted := progressed.trans (sameTables_modLink _ (·.grant grant))
    unfold State.ackInUp
    dsimp only
    generalize (if ackedCount s.link.replay ack = 0 then s.applyAck ack else (s.applyAck ack).modLink Link.progress) = u
      at granted ⊢
    split
    · exact granted.trans (sameTables_modLink _ _)
    · exact granted
  · exact (acked.trans (sameTables_modLink _ _)).trans (sameTables_modLink _ _)

/-- RESYNC empties the link's buffers and hands over staged values; no table changes (R148). -/
theorem sameTables_applyResync (s : State) : SameTables s s.applyResync := by
  have released := (sameTables_modLink s fun l => { l with replay := [] }).trans
    (eventSide_resyncEvents _ s.link.replay).sameTables
  unfold State.applyResync
  dsimp only
  exact (released.trans (eventSide_raiseBy _ _ _).sameTables).trans (sameTables_modLink _ _)

/-! ### Owners that leave the tables alone -/

/-- The owner's answer leaves the three tables of every state as they were. -/
def ownerSparesTables (owner : State → List Byte → Answer) : Prop :=
  ∀ (s : State) (params : List Byte), SameTables s (owner s params).state

theorem ownDescribe_sparesTables : ownerSparesTables ownDescribe := by
  intro s params
  unfold ownDescribe
  split <;> exact SameTables.refl s

theorem ownGetProfile_sparesTables : ownerSparesTables ownGetProfile := by
  intro s params
  unfold ownGetProfile
  repeat' split
  all_goals exact SameTables.refl s

theorem ownGetChannel_sparesTables : ownerSparesTables ownGetChannel := by
  intro s params
  unfold ownGetChannel
  repeat' split
  all_goals exact SameTables.refl s

theorem ownSetRoute_sparesTables : ownerSparesTables ownSetRoute := by
  intro s params
  unfold ownSetRoute
  repeat' split
  all_goals exact ⟨rfl, rfl, rfl⟩

theorem ownDropRoute_sparesTables : ownerSparesTables ownDropRoute := by
  intro s params
  unfold ownDropRoute
  repeat' split
  all_goals exact ⟨rfl, rfl, rfl⟩

theorem ownCopyRoutes_sparesTables : ownerSparesTables ownCopyRoutes := by
  intro s params
  unfold ownCopyRoutes
  split <;> exact ⟨rfl, rfl, rfl⟩

theorem ownGetRoutes_sparesTables : ownerSparesTables ownGetRoutes := by
  intro s params
  unfold ownGetRoutes
  repeat' split
  all_goals exact SameTables.refl s

theorem ownSetAlert_sparesTables : ownerSparesTables ownSetAlert := by
  intro s params
  unfold ownSetAlert
  repeat' split
  all_goals exact ⟨rfl, rfl, rfl⟩

theorem ownQuietAlert_sparesTables : ownerSparesTables ownQuietAlert := by
  intro s params
  unfold ownQuietAlert
  split <;> exact ⟨rfl, rfl, rfl⟩

theorem ownReadCounters_sparesTables : ownerSparesTables ownReadCounters := by
  intro s params
  unfold ownReadCounters
  repeat' split
  all_goals exact SameTables.refl s

theorem ownClearCounters_sparesTables : ownerSparesTables ownClearCounters := by
  intro s params
  unfold ownClearCounters
  repeat' split
  all_goals exact ⟨rfl, rfl, rfl⟩

theorem ownResync_sparesTables : ownerSparesTables ownResync := by
  intro s params
  unfold ownResync
  split
  · exact sameTables_applyResync s
  · exact SameTables.refl s

theorem ownUnknown_sparesTables : ownerSparesTables ownUnknown := fun s _ => SameTables.refl s

theorem ownRestart_sparesTables : ownerSparesTables ownRestart := fun s _ => SameTables.refl s

/-! ### Properties of the tables that the events of a running part keep -/

/-- `P` speaks of the three tables only, and is kept by every operation that the commands make on them, the writers of
configuration (SET_CHANNEL, SET_PROFILE) and the power reset apart. -/
structure KeptByEvents (P : State → Prop) : Prop where
  congr : ∀ {s t : State}, P s → SameTables s t → P t
  sample : ∀ (s : State) (c : ChanNo) (x : Sample), P s → P (s.deliverSample c x)
  abandon : ∀ (s : State) (c : ChanNo), P s → P (s.abandonRunning c)
  silence : ∀ (s : State) (c : ChanNo), P s → P (s.silenceEvent c)
  resume : ∀ (s : State) (c : ChanNo), P s → P (s.resumeEvent c)
  unroute : ∀ (s : State) (c : ChanNo), P s → P (s.unrouteEvent c)
  drift : ∀ (s : State) (c : ChanNo), timerExpired (s.chan c).run.quiet = true → P s → P (s.driftStep c)
  stuck : ∀ (s : State) (c : ChanNo), (s.chan c).run.engaged = true → P s → P (s.stuckExpiry c)
  force : ∀ (s : State) (c : ChanNo), (s.chan c).running = true → P s → P (s.forceSettling c)
  restart : ∀ (s : State) (tag : Byte), P s → P (s.restart tag)
  tick : ∀ s : State, P s → P s.tick

/-- What each step of a left fold keeps, the fold keeps. -/
theorem foldl_keeps {α : Type} {P : State → Prop} {f : State → α → State} (h : ∀ s a, P s → P (f s a)) (l : List α)
    {s : State} (hs : P s) : P (l.foldl f s) := by
  induction l generalizing s with
  | nil => exact hs
  | cons a l ih => exact ih (h s a hs)

section
variable {P : State → Prop} {s t : State}

/-- A frame's whole handling: resumptions, abandoned windows and samples, on the channels of its route (R28). -/
theorem KeptByEvents.keeps_takeFrame (R : KeptByEvents P) (h : P s) (a : ActiveRoute) (cls : FrameClass)
    (m : SampleFrame) : P (s.takeFrame a cls m) := by
  have tracked : P (s.trackFrame a.route m.sequence) := R.congr h ⟨rfl, rfl, rfl⟩
  have resumed : P ((s.trackFrame a.route m.sequence).resumeRoute a) := by
    unfold State.resumeRoute
    split
    · exact foldl_keeps R.resume _ (R.congr tracked ⟨rfl, rfl, rfl⟩)
    · exact tracked
  have gapped : P (((s.trackFrame a.route m.sequence).resumeRoute a).takeGap a.route cls) := by
    unfold State.takeGap
    split
    · exact foldl_keeps R.abandon _ (R.congr resumed ((sameTables_hand _ _ _).trans (sameTables_raise _ _)))
    all_goals exact resumed
  have sampled : P ((((s.trackFrame a.route m.sequence).resumeRoute a).takeGap a.route cls).deliverLanes a.route
      m.samples) := by
    have lanes := foldl_keeps (f := fun s (lane : ChanNo × Sample) => s.deliverSample lane.1 lane.2)
      (fun s lane => R.sample s lane.1 lane.2) (a.route.range.zip m.samples) gapped
    unfold State.deliverLanes
    dsimp only
    split
    · exact lanes
    · exact R.congr lanes (sameTables_raise _ _)
  unfold State.takeFrame
  dsimp only
  split
  · refine R.congr sampled ?_
    unfold State.offerMirror
    split
    · exact sameTables_modLink _ _
    · exact sameTables_raise _ _
  · exact sampled

theorem KeptByEvents.keeps_handleInlet (R : KeptByEvents P) (h : P s) (f : RawFrame) : P (s.handleInlet f) := by
  unfold State.handleInlet
  split
  · exact R.congr h (sameTables_raise _ _)
  · unfold State.routeFrame
    split
    · exact R.congr h (sameTables_raise _ _)
    · split
      · exact R.congr h (sameTables_raise _ _)
      · exact R.keeps_takeFrame h _ _ _

/-- A taken swap is unroute events, as the tables see it (R38, R39). -/
theorem KeptByEvents.keeps_takeSwap (R : KeptByEvents P) (h : P s) : P s.takeSwap :=
  foldl_keeps R.unroute _ (R.congr h (sameTables_modInlet s _))

theorem KeptByEvents.keeps_takeDueSwap (R : KeptByEvents P) (h : P s) : P s.takeDueSwap := by
  unfold State.takeDueSwap
  split
  · exact R.congr (R.keeps_takeSwap h) (sameTables_complete _ _ _)
  · exact h

theorem KeptByEvents.keeps_beginSwap (R : KeptByEvents P) (h : P s) (params : List Byte) : P (s.beginSwap params) := by
  unfold State.beginSwap
  split
  · exact R.congr h (sameTables_complete _ _ _)
  · split
    · exact R.congr (R.keeps_takeSwap h) (sameTables_complete _ _ _)
    · exact R.congr h (sameTables_modInlet _ _)

/-- An arriving request changes the tables only as a RESTART (R155, R174). -/
theorem KeptByEvents.keeps_takeRequest (R : KeptByEvents P) (h : P s) (q : Request) : P (s.takeRequest q) := by
  unfold State.takeRequest
  dsimp only
  split
  · exact R.restart _ _ (R.keeps_takeDueSwap h)
  · exact R.congr h (sameTables_answerAtArrival _ _ _)
  · exact R.congr h (sameTables_answerAtArrival _ _ _)
  · exact R.congr h ((sameTables_setMgmt s _).trans (sameTables_answerAtArrival _ _ _))
  · exact R.congr h (sameTables_setMgmt s _)

/-- An execution row changes the tables only as its owner does (R162). -/
theorem KeptByEvents.keeps_execute (R : KeptByEvents P) (h : P s) (is : Byte → Bool)
    {owner : State → List Byte → Answer} (ho : ∀ q, s.executable = some q → P (owner s q.params).state) :
    P (s.whileOn (·.execute is owner)) :=
  State.whileOn_keeps h (State.execute_keeps h fun q hq _ => R.congr (ho q hq) (sameTables_complete _ _ _))

theorem KeptByEvents.keeps_executeSparing (R : KeptByEvents P) (h : P s) (is : Byte → Bool)
    {owner : State → List Byte → Answer} (ho : ownerSparesTables owner) : P (s.whileOn (·.execute is owner)) :=
  R.keeps_execute h is fun q _ => R.congr h (ho s q.params)

theorem KeptByEvents.keeps_ownRebase (R : KeptByEvents P) (h : P s) (params : List Byte) :
    P (ownRebase s params).state := by
  unfold ownRebase
  split
  · split
    · split
      · exact R.force s _ (by assumption) h
      · exact h
    · exact h
  · exact h

/-! ### The commands that only the outlet link, its queues and the inlet's reception see -/

theorem sameTables_completeTransmission (s : State) : SameTables s s.completeTransmission := by
  unfold State.completeTransmission
  dsimp only
  split <;> exact ⟨rfl, rfl, rfl⟩

theorem sameTables_ackExpiry (s : State) : SameTables s s.ackExpiry := by
  unfold State.ackExpiry
  split <;> exact ⟨rfl, rfl, rfl⟩

/-- The rows whose event lies outside the channels: frames of the outbound lane, the link's and the alert's timers, the
sync pairs and the truncations. -/
def sparesTables : Instr → Bool
  | .inletTruncation | .ackFrame _ | .inboundDiscard _ | .inboundTruncation | .ackTimerExpiry | .announceTimerExpiry
  | .holdTimerExpiry | .transmissionComplete | .responseFrameSend | .announceFrameSend | .retransmittedFrame
  | .newEventFrame | .mirrorFrameSend | .inletSyncPair | .inboundSyncPair => true
  | _ => false

theorem exec_sameTables {i : Instr} (hi : sparesTables i = true) (h : exec i s = .next t) : SameTables s t := by
  have on : ∀ {f : State → State}, SameTables s (f s) → SameTables s (s.whileOn f) :=
    State.whileOn_keeps (SameTables.refl s)
  cases i with
  | inletTruncation | inboundDiscard _ | inboundTruncation | announceTimerExpiry | holdTimerExpiry | responseFrameSend
  | announceFrameSend | retransmittedFrame | newEventFrame | mirrorFrameSend =>
    cases h
    refine on ?_
    split <;> exact ⟨rfl, rfl, rfl⟩
  | ackFrame f =>
    cases h
    refine on ?_
    split
    · exact (sameTables_modLink s _).trans (sameTables_takeAck _ _ _ _)
    all_goals exact SameTables.refl s
  | ackTimerExpiry =>
    cases h
    refine on ?_
    split
    · exact sameTables_ackExpiry s
    · exact SameTables.refl s
  | transmissionComplete =>
    cases h
    refine on ?_
    split
    · exact sameTables_completeTransmission s
    · exact SameTables.refl s
  | inletSyncPair | inboundSyncPair =>
    cases h
    exact on ⟨rfl, rfl, rfl⟩
  | _ => cases hi

/-! ### Every command of a running part -/

/-- The rows that write configuration: SET_CHANNEL, SET_PROFILE, the power reset, and the release that ends it. -/
def writesConfiguration : Instr → Bool
  | .powerReset _ | .resetNRelease | .setChannel | .setProfile => true
  | _ => false

/-- A property of the tables that their events keep is kept by every command that writes no configuration. -/
theorem KeptByEvents.keeps_exec (R : KeptByEvents P) {i : Instr} (hi : writesConfiguration i = false) (hs : P s)
    (h : exec i s = .next t) : P t := by
  by_cases hq : sparesTables i = true
  · exact R.congr hs (exec_sameTables hq h)
  cases i with
  | powerReset _ | resetNRelease | setChannel | setProfile => cases hi
  | sampleFrame f =>
    cases h
    exact State.whileOn_keeps hs (R.congr (R.keeps_handleInlet (R.keeps_takeDueSwap hs) f) (sameTables_modInlet _ _))
  | silenceTimerExpiry source =>
    cases h
    refine State.whileOn_keeps hs ?_
    split
    · split
      · exact foldl_keeps R.silence _ (R.congr hs ⟨rfl, rfl, rfl⟩)
      · exact hs
    · exact hs
  | quietTimerExpiry c =>
    cases h
    refine State.whileOn_keeps hs ?_
    split
    · exact R.drift s c (by assumption) hs
    · exact hs
  | maxActiveExpiry c =>
    cases h
    refine State.whileOn_keeps hs ?_
    split
    · rename_i due
      exact R.stuck s c (Bool.and_eq_true_iff.mp due).1 hs
    · exact hs
  | requestFrame f =>
    cases h
    refine State.whileOn_keeps hs ?_
    split
    · exact R.keeps_takeRequest (R.congr hs (sameTables_modLink s _)) _
    all_goals exact hs
  | swapRoutes =>
    cases h
    refine State.whileOn_keeps hs ?_
    split
    · split
      · exact R.keeps_beginSwap hs _
      · exact hs
    · exact hs
  | swapTaken =>
    cases h
    exact State.whileOn_keeps hs (R.keeps_takeDueSwap hs)
  | timeBaseTick =>
    cases h
    exact State.whileOn_keeps hs (R.tick s hs)
  | rebase =>
    cases h
    exact R.keeps_execute hs _ fun q _ => R.keeps_ownRebase hs q.params
  | describe => cases h; exact R.keeps_executeSparing hs _ ownDescribe_sparesTables
  | getProfile => cases h; exact R.keeps_executeSparing hs _ ownGetProfile_sparesTables
  | getChannel => cases h; exact R.keeps_executeSparing hs _ ownGetChannel_sparesTables
  | setRoute => cases h; exact R.keeps_executeSparing hs _ ownSetRoute_sparesTables
  | dropRoute => cases h; exact R.keeps_executeSparing hs _ ownDropRoute_sparesTables
  | copyRoutes => cases h; exact R.keeps_executeSparing hs _ ownCopyRoutes_sparesTables
  | getRoutes => cases h; exact R.keeps_executeSparing hs _ ownGetRoutes_sparesTables
  | setAlert => cases h; exact R.keeps_executeSparing hs _ ownSetAlert_sparesTables
  | quietAlert => cases h; exact R.keeps_executeSparing hs _ ownQuietAlert_sparesTables
  | readCounters => cases h; exact R.keeps_executeSparing hs _ ownReadCounters_sparesTables
  | clearCounters => cases h; exact R.keeps_executeSparing hs _ ownClearCounters_sparesTables
  | resync => cases h; exact R.keeps_executeSparing hs _ ownResync_sparesTables
  | unknownCommand => cases h; exact R.keeps_executeSparing hs _ ownUnknown_sparesTables
  | restartWithParameters => cases h; exact R.keeps_executeSparing hs _ ownRestart_sparesTables
  | _ => exact absurd rfl hq

/-! ### The writers of configuration -/

/-- SET_CHANNEL, as the tables see it: nothing, or an accepted change of one channel's configuration (R16). -/
theorem KeptByEvents.keeps_setChannel (R : KeptByEvents P) (hc : ∀ s c new, P s → P (s.setConfig c new)) (hs : P s)
    (h : exec .setChannel s = .next t) : P t := by
  cases h
  refine R.keeps_execute hs _ fun q _ => ?_
  unfold ownSetChannel
  split
  · split
    · exact hc s _ _ hs
    · exact hs
  · exact hs

/-- What SET_PROFILE may store passes the checks of R13. -/
theorem valid_of_parseProfile {block : List Byte} {n : Fin 16} {p : Profile} (h : parseProfile block = some (n, p)) :
    p.valid = true := by
  unfold parseProfile at h
  split at h
  · split at h
    · cases h
      assumption
    · cases h
  · cases h

/-- SET_PROFILE, as the tables see it: nothing, or one valid profile stored (R13). -/
theorem KeptByEvents.keeps_setProfile (R : KeptByEvents P)
    (hp : ∀ s (n : Fin 16) p, Profile.valid p = true → P s → P { s with profiles := s.profiles.set n p }) (hs : P s)
    (h : exec .setProfile s = .next t) : P t := by
  cases h
  refine R.keeps_execute hs _ fun q _ => ?_
  unfold ownSetProfile
  split
  · split
    · rename_i n p parsed
      exact hp s n p (valid_of_parseProfile parsed) hs
    · exact hs
  · exact hs

/-- The release of a held part (R150). -/
theorem exec_release_of_held {cause : PowerCause} (h : s.power = .held cause) :
    exec .resetNRelease s = .next { State.released cause with pending := s.pending } := by
  show execResetNRelease s = _
  simp only [execResetNRelease, h]

/-- On a running part there is no release (assumption 2). -/
theorem exec_release_of_running (h : s.power = .running) : exec .resetNRelease s = .next s := by
  show execResetNRelease s = _
  simp only [execResetNRelease, h]

/-- The tables at a power reset, and at its release (R150). -/
theorem sameTables_released (cause : PowerCause) (l : List Instr) :
    SameTables (State.heldIn cause) { State.released cause with pending := l } := ⟨rfl, rfl, rfl⟩

/-- A property of the tables that holds at their power-reset values, that their events keep, and that the writers of
configuration keep, is kept by every step. -/
theorem KeptByEvents.keeps_step (R : KeptByEvents P) (hpower : ∀ cause, P (State.heldIn cause))
    (hc : ∀ s c new, P s → P (s.setConfig c new))
    (hp : ∀ s (n : Fin 16) p, Profile.valid p = true → P s → P { s with profiles := s.profiles.set n p }) (hs : P s)
    (h : step s = .next t) : P t := by
  refine step_keeps (fun s l hs => R.congr hs ⟨rfl, rfl, rfl⟩) (fun i s t hs h => ?_) hs h
  by_cases hi : writesConfiguration i = false
  · exact R.keeps_exec hi hs h
  cases i with
  | powerReset cause =>
    cases h
    exact R.congr (hpower cause) ⟨rfl, rfl, rfl⟩
  | resetNRelease =>
    cases power : s.power with
    | held cause =>
      cases (exec_release_of_held power).symm.trans h
      exact R.congr (hpower cause) (sameTables_released cause _)
    | running =>
      cases (exec_release_of_running power).symm.trans h
      exact hs
  | setChannel => exact R.keeps_setChannel hc hs h
  | setProfile => exact R.keeps_setProfile hp hs h
  | _ => exact absurd rfl hi

end

end Sys2Proof.Machine
end

section
/-! The writers of configurations and profiles (R2, R7), and the order of a profile's thresholds and breakpoints
(R8). -/

namespace Sys2Proof.Machine

/-! ### What only SET_CHANNEL and SET_PROFILE write -/

/-- The configuration part of every channel and the Profile Table of `t` are those of `s`. -/
structure SameConfiguration (s t : State) : Prop where
  config : ∀ c, (t.chan c).config = (s.chan c).config
  profiles : t.profiles = s.profiles

theorem SameTables.sameConfiguration {s t : State} (h : SameTables s t) : SameConfiguration s t :=
  ⟨fun c => by rw [h.chan c], h.profiles⟩

theorem ChannelSide.sameConfiguration {P : ChanNo → Prop} {s t : State} (h : ChannelSide P s t) :
    SameConfiguration s t := ⟨h.config, h.profiles⟩

theorem sameConfiguration_restart (s : State) (tag : Byte) : SameConfiguration s (s.restart tag) :=
  ⟨fun c => by simp [Channel.restart], rfl⟩

theorem State.chan_tick (s : State) (c : ChanNo) : s.tick.chan c = (s.chan c).tick := by simp [State.chan, State.tick]

theorem sameConfiguration_tick (s : State) : SameConfiguration s s.tick :=
  ⟨fun c => by rw [State.chan_tick]; rfl, rfl⟩

/-- What depends on configurations and profiles only, every event of a running part keeps. -/
theorem keptByEvents_of_sameConfiguration {P : State → Prop} (h : ∀ {s t : State}, P s → SameConfiguration s t → P t) :
    KeptByEvents P where
  congr hs e := h hs e.sameConfiguration
  sample s c x hs := h hs (channelSide_deliverSample (P := (· = c)) s c rfl x).sameConfiguration
  abandon s c hs := h hs (channelSide_abandonRunning (P := (· = c)) s c rfl).sameConfiguration
  silence s c hs := h hs (channelSide_silenceEvent (P := (· = c)) s c rfl).sameConfiguration
  resume s c hs := h hs (channelSide_resumeEvent (P := (· = c)) s c rfl).sameConfiguration
  unroute s c hs := h hs (channelSide_unrouteEvent (P := (· = c)) s c rfl).sameConfiguration
  drift s c _ hs := h hs (channelSide_driftStep (P := (· = c)) s c rfl).sameConfiguration
  stuck s c _ hs := h hs (channelSide_stuckExpiry (P := (· = c)) s c rfl).sameConfiguration
  force s c _ hs := h hs (channelSide_forceSettling (P := (· = c)) s c rfl).sameConfiguration
  restart s tag hs := h hs (sameConfiguration_restart s tag)
  tick s hs := h hs (sameConfiguration_tick s)

/-- The configuration parts stay what they were in `s`. -/
theorem keptByEvents_configs (s : State) : KeptByEvents fun t => ∀ c, (t.chan c).config = (s.chan c).config :=
  keptByEvents_of_sameConfiguration fun hs e c => (e.config c).trans (hs c)

/-- What depends on the Profile Table only. -/
theorem keptByEvents_profiles (Q : Vector Profile 16 → Prop) : KeptByEvents fun t => Q t.profiles :=
  keptByEvents_of_sameConfiguration fun hs e => e.profiles ▸ hs

theorem State.setConfig_profiles (s : State) (c : ChanNo) (new : ChannelConfig) :
    (s.setConfig c new).profiles = s.profiles := by
  obtain ⟨-, -, -, profiles, -⟩ := setConfig_frame s c new
  exact profiles

/-- SET_PROFILE touches no channel (R13). -/
theorem exec_setProfile_configs {s t : State} (h : exec .setProfile s = .next t) (c : ChanNo) :
    (t.chan c).config = (s.chan c).config :=
  (keptByEvents_configs s).keeps_setProfile (fun _ _ _ _ hu => hu) (fun _ => rfl) h c

/-- SET_CHANNEL touches no profile (R16). -/
theorem exec_setChannel_profiles {s t : State} (h : exec .setChannel s = .next t) : t.profiles = s.profiles :=
  (keptByEvents_profiles (· = s.profiles)).keeps_setChannel
    (fun u c new hu => (u.setConfig_profiles c new).trans hu) rfl h

/-- The release of a held part leaves configurations and profiles at their power-reset values (R150). -/
theorem exec_release_sameConfiguration {s t : State} (hs : s.heldOk) (h : exec .resetNRelease s = .next t) :
    SameConfiguration s t := by
  cases power : s.power with
  | held cause =>
    cases (exec_release_of_held power).symm.trans h
    rw [hs cause power]
    exact SameTables.sameConfiguration ⟨rfl, rfl, rfl⟩
  | running =>
    cases (exec_release_of_running power).symm.trans h
    exact ⟨fun _ => rfl, rfl⟩

/-- Settles O4: no event of a running part writes configuration or profiles, and each writer spares the other's
table. -/
theorem configurationWriters : Obligations.ConfigurationWriters := by
  intro s t i hs hpower h
  by_cases hi : writesConfiguration i = false
  · exact ⟨fun _ => (keptByEvents_configs s).keeps_exec hi (fun _ => rfl) h,
      fun _ => (keptByEvents_profiles (· = s.profiles)).keeps_exec hi rfl h⟩
  cases i with
  | powerReset cause => exact absurd rfl (hpower cause)
  | resetNRelease =>
    have same := exec_release_sameConfiguration hs h
    exact ⟨fun _ => same.config, fun _ => same.profiles⟩
  | setChannel => exact ⟨fun other => absurd rfl other, fun _ => exec_setChannel_profiles h⟩
  | setProfile => exact ⟨fun _ => exec_setProfile_configs h, fun other => absurd rfl other⟩
  | _ => exact absurd rfl hi

/-! ### The order of a profile's thresholds and breakpoints (R8) -/

/-- The release threshold lies below the onset threshold, and the breakpoints never decrease (R8). -/
def Profile.ordered (p : Profile) : Prop := p.release < p.onset ∧ p.b1 ≤ p.b2 ∧ p.b2 ≤ p.b3 ∧ p.b3 ≤ p.b4

theorem Profile.ordered_of_valid {p : Profile} (h : p.valid = true) : p.ordered := by
  obtain ⟨-, h12, h23, h34, -, -, -, -, -, -, -, below, -⟩ := p.valid_iff.mp h
  exact ⟨below, h12, h23, h34⟩

theorem Profile.initial_valid : Profile.initial.valid = true := by decide

/-- A property of single profiles that the checks of R13 ensure is kept by every step (R7). -/
theorem step_keeps_profiles {Q : Profile → Prop} (hQ : ∀ {p : Profile}, p.valid = true → Q p) {s t : State}
    (hs : ∀ n : Fin 16, Q s.profiles[n]) (h : step s = .next t) : ∀ n : Fin 16, Q t.profiles[n] := by
  refine (keptByEvents_profiles fun v => ∀ n : Fin 16, Q v[n]).keeps_step ?_ ?_ ?_ hs h
  · intro cause n
    rw [show (State.heldIn cause).profiles[n] = Profile.initial by simp [State.heldIn]]
    exact hQ Profile.initial_valid
  · intro u c new hu n
    rw [State.setConfig_profiles]
    exact hu n
  · intro u m p hp hu n
    by_cases e : m.val = n.val
    · simpa [e] using hQ hp
    · simpa [Vector.getElem_set_ne, e] using hu n

/-- The ranges that a block is checked for do not depend on its fixed-tier flag. -/
theorem not_parsed_of_not_ordered {block : List Byte} {fixed : Bool} (h : ¬ (profileFields block fixed).ordered) :
    parseProfile block = none := by
  unfold parseProfile
  split
  · rw [if_neg]
    exact fun valid => h (Profile.ordered_of_valid valid)
  · rfl

/-- A block of the right length that fails a check of R13 is answered BAD_VALUE. -/
theorem exec_setProfile_refused {s : State} {q : Request} {rest : List Request} (ready : s.ready q rest)
    (command : q.command = 0x10) (length : q.params.length = 28) (parsed : parseProfile q.params = none) :
    exec .setProfile s = .next (s.answered q rest .badValue []) := by
  refine exec_refused ready rfl command ?_
  simp only [ownSetProfile, profileBlockLength, length, if_true, parsed]

/-- Settles O51: what the checks of R13 let pass is in order, and nothing else is stored. -/
theorem profilesStayValid : Obligations.ProfilesStayValid :=
  ⟨Profile.ordered_of_valid Profile.initial_valid, fun _ _ => step_keeps_profiles Profile.ordered_of_valid,
    fun _ _ _ _ ready command length unordered =>
      exec_setProfile_refused ready command length (not_parsed_of_not_ordered unordered)⟩

end Sys2Proof.Machine
end

section
/-! Every level of a channel lies in its range after every step (R3, R4, R7, R45). -/

namespace Sys2Proof.Machine

/-! ### Levels of one channel -/

section
variable {ch : Channel} (h : ch.inRange)
include h

theorem Channel.inRange.openWin : ∀ w ∈ ch.window.openWin, w.inRange := h.1
theorem Channel.inRange.lastRate : ch.window.lastRate ≤ Config.maxCount := h.2.1
theorem Channel.inRange.lastMean : ∀ m ∈ ch.window.lastMean, m ≤ Config.maxCount := h.2.2.1
theorem Channel.inRange.baseline : ∀ b ∈ ch.run.baseline, b ≤ Config.maxCount := h.2.2.2.1
theorem Channel.inRange.lastValue : ∀ v ∈ ch.run.lastValue, v ≤ Config.maxCount := h.2.2.2.2

end

/-- No open window, no mean, no baseline, no value: nothing to be out of range. -/
theorem Channel.restart_inRange (ch : Channel) : ch.restart.inRange := by
  refine ⟨?_, ?_, ?_, ?_, ?_⟩ <;> simp [Channel.restart, Channel.initial]

/-! ### The arithmetic of counts -/

theorem absDiff_le {a b n : Nat} (ha : a ≤ n) (hb : b ≤ n) : absDiff a b ≤ n := by
  unfold absDiff
  omega

/-- The rate is a difference of two means, or 0 (R50). -/
theorem rateOf_le {last : Option Nat} {mean n : Nat} (hl : ∀ m ∈ last, m ≤ n) (hm : mean ≤ n) :
    rateOf last mean ≤ n := by
  cases last with
  | none => exact Nat.zero_le n
  | some m => exact absDiff_le hm (hl m rfl)

/-- A drift step does not pass the mean (R97). -/
theorem driftToward_le (step : Nat) {b m n : Nat} (hb : b ≤ n) (hm : m ≤ n) : driftToward step b m ≤ n := by
  unfold driftToward
  split <;> omega

theorem sampleCount_le (x : Sample) : sampleCount x ≤ Config.maxCount := by
  unfold sampleCount
  split
  · exact Nat.le_refl _
  · exact Nat.le_of_lt_succ x.value.isLt

/-! ### A window that takes samples -/

/-- The bounds of R3 and R45 on a window that holds a sample, full or not. -/
structure Window.filling (w : Window) : Prop where
  some_sample : 1 ≤ w.fill
  fits : w.fill ≤ w.latched
  length : w.latched ≤ 64
  extremes : w.minimum ≤ w.maximum
  count : w.maximum ≤ Config.maxCount
  sum_low : w.fill * w.minimum ≤ w.sum
  sum_high : w.sum ≤ w.fill * w.maximum

/-- Short of its latched length, it may stay open. -/
theorem Window.filling.inRange {w : Window} (h : w.filling) (short : w.fill < w.latched) : w.inRange :=
  ⟨h.some_sample, short, h.length, h.extremes, h.count, h.sum_low, h.sum_high⟩

/-- The mean lies no higher than the highest sample (R49). -/
theorem Window.filling.mean_le {w : Window} (h : w.filling) : w.mean ≤ Config.maxCount :=
  calc w.sum / w.latched ≤ (w.latched * w.maximum) / w.latched :=
        Nat.div_le_div_right (h.sum_high.trans (Nat.mul_le_mul_right _ h.fits))
    _ = w.maximum := Nat.mul_div_cancel_left _ (h.some_sample.trans h.fits)
    _ ≤ Config.maxCount := h.count

theorem Window.openWith_filling {latched : Nat} (positive : 1 ≤ latched) (small : latched ≤ 64) (x : Sample) :
    (Window.openWith latched x).filling :=
  ⟨Nat.le_refl 1, positive, small, Nat.le_refl _, sampleCount_le x, by simp [Window.openWith],
    by simp [Window.openWith]⟩

/-- A further sample keeps the sum between the extremes times the fill count (R45). -/
theorem Window.accumulate_filling {w : Window} (h : w.inRange) (x : Sample) : (w.accumulate x).filling := by
  obtain ⟨some_sample, short, length, extremes, count, low, high⟩ := h
  refine ⟨Nat.le_add_left 1 w.fill, short, length, ?_, Nat.max_le.mpr ⟨count, sampleCount_le x⟩, ?_, ?_⟩
  · exact (Nat.min_le_left _ _).trans (extremes.trans (Nat.le_max_left _ _))
  · show (w.fill + 1) * min w.minimum (sampleCount x) ≤ w.sum + sampleCount x
    rw [Nat.succ_mul]
    exact Nat.add_le_add ((Nat.mul_le_mul_left _ (Nat.min_le_left _ _)).trans low) (Nat.min_le_right _ _)
  · show w.sum + sampleCount x ≤ (w.fill + 1) * max w.maximum (sampleCount x)
    rw [Nat.succ_mul]
    exact Nat.add_le_add (high.trans (Nat.mul_le_mul_left _ (Nat.le_max_left _ _))) (Nat.le_max_right _ _)

/-! ### Writing one part of a channel -/

section
variable {s : State} {c : ChanNo}

theorem State.levelsInRange.chan (h : s.levelsInRange) (c : ChanNo) : (s.chan c).inRange := h.2 c

theorem levelsInRange_of_sameTables {t : State} (h : s.levelsInRange) (e : SameTables s t) : t.levelsInRange :=
  ⟨fun n => by rw [e.profiles]; exact h.1 n, fun c => by rw [e.chan c]; exact h.2 c⟩

theorem levelsInRange_setChan (h : s.levelsInRange) {ch : Channel} (hc : ch.inRange) :
    (s.setChan c ch).levelsInRange := by
  refine ⟨h.1, fun d => ?_⟩
  by_cases e : d = c
  · rw [e, State.chan_setChan_same]
    exact hc
  · rw [s.chan_setChan_other ch e]
    exact h.2 d

/-- The state part: only baseline and last published value are levels (R4). -/
theorem levelsInRange_modRun (h : s.levelsInRange) {f : RunPart → RunPart}
    (hb : ∀ b ∈ (f (s.chan c).run).baseline, b ≤ Config.maxCount)
    (hv : ∀ v ∈ (f (s.chan c).run).lastValue, v ≤ Config.maxCount) : (s.modRun c f).levelsInRange :=
  levelsInRange_setChan h ⟨(h.chan c).openWin, (h.chan c).lastRate, (h.chan c).lastMean, hb, hv⟩

/-- A write of the state part that keeps baseline and last published value. -/
theorem levelsInRange_modRun_same (h : s.levelsInRange) {f : RunPart → RunPart}
    (hb : (f (s.chan c).run).baseline = (s.chan c).run.baseline)
    (hv : (f (s.chan c).run).lastValue = (s.chan c).run.lastValue) : (s.modRun c f).levelsInRange :=
  levelsInRange_modRun h (by rw [hb]; exact (h.chan c).baseline) (by rw [hv]; exact (h.chan c).lastValue)

/-- The window part: window, last rate and last mean are levels, the tier is none (R3). -/
theorem levelsInRange_modWindow (h : s.levelsInRange) {f : WindowPart → WindowPart}
    (hw : ∀ w ∈ (f (s.chan c).window).openWin, w.inRange) (hr : (f (s.chan c).window).lastRate ≤ Config.maxCount)
    (hm : ∀ m ∈ (f (s.chan c).window).lastMean, m ≤ Config.maxCount) : (s.modWindow c f).levelsInRange :=
  levelsInRange_setChan h ⟨hw, hr, hm, (h.chan c).baseline, (h.chan c).lastValue⟩

theorem levelsInRange_hand (h : s.levelsInRange) (k : RecordKind) : (s.hand c k).levelsInRange :=
  levelsInRange_of_sameTables h (sameTables_hand s c k)

end

/-! ### Entries and results -/

/-- A rejected result leaves the channel where it is, ends its PENDING, or makes it NOISY (R74). -/
theorem State.takeRejected_cases (s : State) (c : ChanNo) (p : Profile) (spread : Nat) :
    s.takeRejected c p spread = s ∨ s.takeRejected c p spread = s.enterIdle c ∨
    s.takeRejected c p spread =
      (s.hand c (.noisy spread)).modRun c fun r => { r with state := .noisy, confirm := 0, quiet := none } := by
  unfold State.takeRejected
  dsimp only
  by_cases limit : p.rejectLimit ≤ (s.chan c).run.rejectRun
  · simp only [limit, if_true]
    split <;> simp
  · simp only [limit, if_false]
    by_cases pending : (s.chan c).run.state = .pending
    · simp [pending]
    · split <;> simp [pending]

section
variable {s : State} (c : ChanNo) (h : s.levelsInRange)
include h

theorem levelsInRange_enterIdle : (s.enterIdle c).levelsInRange := levelsInRange_modRun_same h rfl rfl

theorem levelsInRange_forgetMean : (s.forgetMean c).levelsInRange :=
  levelsInRange_modWindow h (h.chan c).openWin (Nat.zero_le _) (by simp)

theorem levelsInRange_enterSettling (cause : CaptureCause) : (s.enterSettling c cause).levelsInRange :=
  levelsInRange_forgetMean c (levelsInRange_modRun h (by simp) (h.chan c).lastValue)

theorem levelsInRange_enterOff : (s.enterOff c).levelsInRange :=
  levelsInRange_forgetMean c (levelsInRange_modRun h (by simp) (by simp))

theorem levelsInRange_abandon : (s.abandon c).levelsInRange := by
  unfold State.abandon
  split
  · exact h
  · exact levelsInRange_of_sameTables
      (levelsInRange_modWindow h (by simp) (h.chan c).lastRate (h.chan c).lastMean) (sameTables_raiseWindows _ _ _)

theorem levelsInRange_endEngagement (x : ReleaseReason) : (s.endEngagement c x).levelsInRange := by
  unfold State.endEngagement
  split
  · exact levelsInRange_modRun_same (levelsInRange_hand h _) rfl rfl
  · exact h

theorem levelsInRange_releaseNormal (mean : Nat) : (s.releaseNormal c mean).levelsInRange :=
  levelsInRange_enterIdle c (levelsInRange_modRun_same (levelsInRange_hand h _) rfl rfl)

theorem levelsInRange_confirmOnset (p : Profile) (mean b n : Nat) : (s.confirmOnset c p mean b n).levelsInRange := by
  unfold State.confirmOnset
  split
  · exact levelsInRange_modRun_same (levelsInRange_hand h _) rfl rfl
  · exact levelsInRange_modRun_same h rfl rfl

section
variable {mean : Nat} (hm : mean ≤ Config.maxCount)
include hm

/-- A capture sets the baseline to the mean (R91). -/
theorem levelsInRange_capture : (s.capture c mean).levelsInRange :=
  levelsInRange_hand (levelsInRange_modRun h (by simpa using hm) (h.chan c).lastValue) _

theorem levelsInRange_leaveNoisy (p : Profile) : (s.leaveNoisy c p mean).levelsInRange := by
  unfold State.leaveNoisy
  dsimp only
  split
  · exact levelsInRange_enterIdle c (levelsInRange_capture c h hm)
  · split
    · split
      · exact levelsInRange_releaseNormal c h mean
      · exact levelsInRange_modRun_same h rfl rfl
    · split
      · exact levelsInRange_confirmOnset c h p mean _ 1
      · exact levelsInRange_enterIdle c h

theorem levelsInRange_acceptedMove (p : Profile) : (s.acceptedMove c p mean).levelsInRange := by
  unfold State.acceptedMove
  dsimp only
  split
  · exact levelsInRange_enterIdle c (levelsInRange_capture c h hm)
  · split
    · exact levelsInRange_confirmOnset c h p mean _ 1
    · exact h
  · split
    · exact levelsInRange_confirmOnset c h p mean _ _
    · exact levelsInRange_enterIdle c h
  · split
    · exact levelsInRange_releaseNormal c h mean
    · exact h
  · exact levelsInRange_leaveNoisy c (levelsInRange_hand h _) hm p
  all_goals exact h

/-- A published VALUE is the mean (R76). -/
theorem levelsInRange_takeAccepted (p : Profile) (tier : Tier) : (s.takeAccepted c p mean tier).levelsInRange := by
  have moved := levelsInRange_acceptedMove c h hm p
  unfold State.takeAccepted
  dsimp only
  split
  · have handed := levelsInRange_hand (c := c) moved (.value mean tier)
    exact levelsInRange_modRun handed (handed.chan c).baseline (by simpa using hm)
  · exact moved

end

theorem levelsInRange_takeRejected (p : Profile) (spread : Nat) : (s.takeRejected c p spread).levelsInRange := by
  obtain e | e | e := s.takeRejected_cases c p spread
  · rw [e]
    exact h
  · rw [e]
    exact levelsInRange_enterIdle c h
  · rw [e]
    exact levelsInRange_modRun_same (levelsInRange_hand h _) rfl rfl

/-! ### Windows (R43–R50) -/

theorem levelsInRange_selectTier (p : Profile) (rate : Nat) : (s.selectTier c p rate).levelsInRange := by
  unfold State.selectTier
  split
  · exact h
  · split
    · exact levelsInRange_modWindow h (h.chan c).openWin (h.chan c).lastRate (h.chan c).lastMean
    · exact ⟨h.1, h.2⟩

theorem levelsInRange_rejectWindow (p : Profile) (spread : Nat) : (s.rejectWindow c p spread).levelsInRange :=
  levelsInRange_takeRejected c
    (levelsInRange_of_sameTables (levelsInRange_modRun_same h rfl rfl) (sameTables_raiseWindows _ _ _)) p spread

theorem levelsInRange_acceptWindow {mean : Nat} (hm : mean ≤ Config.maxCount) (p : Profile) :
    (s.acceptWindow c p mean).levelsInRange := by
  have counted := levelsInRange_of_sameTables
    (levelsInRange_modRun_same (c := c) (f := fun r => { r with rejectRun := 0 }) h rfl rfl) (sameTables_raiseWindows _ c WindowCounts.accept)
  have stored := levelsInRange_modWindow (c := c)
    (f := fun w => { w with lastRate := rateOf (s.chan c).window.lastMean mean, lastMean := some mean }) counted
    (counted.chan c).openWin (rateOf_le (h.chan c).lastMean hm) (by simpa using hm)
  exact levelsInRange_takeAccepted c (levelsInRange_selectTier c stored p _) hm p _

/-- A full window, closed, leaves its channel in range, its mean being a count (R47, R49). -/
theorem levelsInRange_closeWindow {w : Window} (hw : w.mean ≤ Config.maxCount) : (s.closeWindow c w).levelsInRange := by
  have closed : (s.modWindow c fun x => { x with openWin := none }).levelsInRange :=
    levelsInRange_modWindow h (by simp) (h.chan c).lastRate (h.chan c).lastMean
  unfold State.closeWindow
  dsimp only
  split
  · exact levelsInRange_rejectWindow c closed _ _
  · exact levelsInRange_acceptWindow c closed hw _

/-- A sample leaves its channel's window within R3 and R45, open or closed. -/
theorem levelsInRange_deliverSample (x : Sample) : (s.deliverSample c x).levelsInRange := by
  have filled : (s.windowWith c x).filling := by
    unfold State.windowWith
    split
    · rename_i w opened
      exact Window.accumulate_filling ((h.chan c).openWin w opened) x
    · obtain ⟨lengths, -⟩ := (Profile.valid_iff _).mp (h.1 (s.chan c).config.profile)
      obtain ⟨positive, small⟩ := lengths _ (Vector.mem_toList_iff.mpr (Vector.getElem_mem _))
      exact Window.openWith_filling positive small x
  unfold State.deliverSample
  dsimp only
  split
  · split
    · rename_i short
      exact levelsInRange_modWindow h (by simpa using filled.inRange short) (h.chan c).lastRate (h.chan c).lastMean
    · exact levelsInRange_closeWindow c h filled.mean_le
  · exact h

/-! ### Route events, timers, requests -/

theorem levelsInRange_silenceEvent : (s.silenceEvent c).levelsInRange := by
  unfold State.silenceEvent
  split
  · exact levelsInRange_modRun_same
      (levelsInRange_hand (levelsInRange_endEngagement c (levelsInRange_abandon c h) _) _) rfl rfl
  · exact h

theorem levelsInRange_resumeEvent : (s.resumeEvent c).levelsInRange := by
  unfold State.resumeEvent
  dsimp only
  split
  · split
    · exact levelsInRange_enterIdle c (levelsInRange_hand h _)
    · exact levelsInRange_enterSettling c (levelsInRange_hand h _) _
  · exact h

theorem levelsInRange_unrouteEvent : (s.unrouteEvent c).levelsInRange := by
  unfold State.unrouteEvent
  split
  · exact levelsInRange_enterSettling c (levelsInRange_endEngagement c (levelsInRange_abandon c h) _) _
  · exact h

theorem levelsInRange_abandonRunning : (s.abandonRunning c).levelsInRange := by
  unfold State.abandonRunning
  split
  · exact levelsInRange_abandon c h
  · exact h

/-- A drift step stays between baseline and mean (R97). -/
theorem levelsInRange_driftStep : (s.driftStep c).levelsInRange := by
  refine levelsInRange_modRun h ?_ (h.chan c).lastValue
  cases hb : (s.chan c).run.baseline with
  | none => simp
  | some b =>
    have base := (h.chan c).baseline b hb
    cases hm : (s.chan c).window.lastMean with
    | none => simpa using base
    | some m => simpa using driftToward_le _ base ((h.chan c).lastMean m hm)

theorem levelsInRange_stuckExpiry : (s.stuckExpiry c).levelsInRange :=
  levelsInRange_enterSettling c
    (levelsInRange_endEngagement c (levelsInRange_hand (levelsInRange_abandon c h) _) _) _

theorem levelsInRange_forceSettling : (s.forceSettling c).levelsInRange :=
  levelsInRange_enterSettling c (levelsInRange_endEngagement c (levelsInRange_abandon c h) _) _

theorem levelsInRange_applyModeChange (old new : ChannelConfig) : (s.applyModeChange c old new).levelsInRange := by
  unfold State.applyModeChange
  split
  · split
    · exact h
    · exact levelsInRange_enterSettling c h _
  · split
    · exact levelsInRange_enterOff c (levelsInRange_endEngagement c (levelsInRange_abandon c h) _)
    · split
      · exact levelsInRange_enterSettling c (levelsInRange_endEngagement c (levelsInRange_abandon c h) _) _
      · exact h

/-- The configuration and the tier are no levels (R12, R16). -/
theorem levelsInRange_setConfig (new : ChannelConfig) : (s.setConfig c new).levelsInRange := by
  have stored : (s.modConfig c fun _ => new).levelsInRange := levelsInRange_setChan h (h.chan c)
  obtain ⟨tier, groups, e⟩ := (s.modConfig c fun _ => new).changeGroup_cases c (s.chan c).config.group new.group
  have moved := levelsInRange_modWindow (c := c) (f := fun w => { w with tier := tier }) stored
    (stored.chan c).openWin (stored.chan c).lastRate (stored.chan c).lastMean
  refine levelsInRange_applyModeChange c ?_ _ _
  rw [e]
  exact ⟨moved.1, moved.2⟩

end

/-- A restart empties every channel but its configuration (R62, R89). -/
theorem levelsInRange_restart {s : State} (h : s.levelsInRange) (tag : Byte) : (s.restart tag).levelsInRange :=
  ⟨h.1, fun c => by rw [State.chan_restart]; exact Channel.restart_inRange _⟩

theorem levelsInRange_tick {s : State} (h : s.levelsInRange) : s.tick.levelsInRange :=
  ⟨h.1, fun c => by rw [State.chan_tick]; exact h.2 c⟩

theorem levelsInRange_heldIn (cause : PowerCause) : (State.heldIn cause).levelsInRange := by
  refine ⟨fun n => ?_, fun c => ?_⟩
  · rw [show (State.heldIn cause).profiles[n] = Profile.initial by simp [State.heldIn]]
    exact Profile.initial_valid
  · rw [show (State.heldIn cause).chan c = Channel.initial by simp [State.heldIn, State.chan]]
    exact Channel.restart_inRange Channel.initial

theorem keptByEvents_levelsInRange : KeptByEvents State.levelsInRange where
  congr := levelsInRange_of_sameTables
  sample _ c x h := levelsInRange_deliverSample c h x
  abandon _ c h := levelsInRange_abandonRunning c h
  silence _ c h := levelsInRange_silenceEvent c h
  resume _ c h := levelsInRange_resumeEvent c h
  unroute _ c h := levelsInRange_unrouteEvent c h
  drift _ c _ h := levelsInRange_driftStep c h
  stuck _ c _ h := levelsInRange_stuckExpiry c h
  force _ c _ h := levelsInRange_forceSettling c h
  restart _ tag h := levelsInRange_restart h tag
  tick _ h := levelsInRange_tick h

/-- SET_PROFILE stores valid profiles only (R13). -/
theorem levelsInRange_setProfile {s : State} (h : s.levelsInRange) (n : Fin 16) {p : Profile} (hp : p.valid = true) :
    ({ s with profiles := s.profiles.set n p } : State).levelsInRange := by
  refine ⟨fun m => ?_, h.2⟩
  by_cases e : n.val = m.val
  · simpa [e] using hp
  · simpa [Vector.getElem_set_ne, e] using h.1 m

/-- Settles O53, operation by operation on the tables. -/
theorem stepKeepsLevelsInRange : Obligations.StepKeepsLevelsInRange := fun _ _ =>
  keptByEvents_levelsInRange.keeps_step levelsInRange_heldIn (fun _ c new h => levelsInRange_setConfig c h new)
    fun _ n _ hp h => levelsInRange_setProfile h n hp

end Sys2Proof.Machine
end

section
/-! The Group Table: what a change of group does to it (R12), and its member counts and tiers after every step
(R11, R54). -/

namespace Sys2Proof.Machine

/-! ### A change of group, group by group (R12) -/

theorem State.joinGroup_groups (s : State) (k g : Fin 8) :
    (s.joinGroup k).groups[g] =
      if k = g then { s.groups[g] with members := s.groups[g].members + 1 } else s.groups[g] := by
  by_cases h : k = g
  · simp [State.joinGroup, h]
  · simp [State.joinGroup, h, Vector.getElem_set_ne, Fin.val_ne_of_ne h]

theorem State.leaveGroup_groups (s : State) (c : ChanNo) (k g : Fin 8) :
    (s.leaveGroup c k).groups[g] =
      if k = g then
        { members := s.groups[g].members - 1, tier := if s.groups[g].members - 1 = 0 then 0 else s.groups[g].tier }
      else s.groups[g] := by
  by_cases h : k = g
  · simp [State.leaveGroup, h]
  · simp [State.leaveGroup, h, Vector.getElem_set_ne, Fin.val_ne_of_ne h]

/-- The left group loses a member and, with its last, its tier; the joined group gains one; the others stand. -/
theorem State.changeGroup_groups (s : State) (c : ChanNo) (old new : Option (Fin 8)) (g : Fin 8) :
    (s.changeGroup c old new).groups[g] =
      if old = new then s.groups[g]
      else if old = some g then
        { members := s.groups[g].members - 1, tier := if s.groups[g].members - 1 = 0 then 0 else s.groups[g].tier }
      else if new = some g then { s.groups[g] with members := s.groups[g].members + 1 }
      else s.groups[g] := by
  by_cases same : old = new
  · rw [if_pos same, same, State.changeGroup_same]
  rw [if_neg same]
  cases old with
  | none =>
    cases new with
    | none => exact absurd rfl same
    | some m => simp only [State.changeGroup_join, State.joinGroup_groups, Option.some.injEq, reduceCtorEq, if_false]
  | some k =>
    cases new with
    | none => simp only [State.changeGroup_leave, State.leaveGroup_groups, Option.some.injEq, reduceCtorEq, if_false]
    | some m =>
      have moved : k ≠ m := fun e => same (by rw [e])
      simp only [State.changeGroup_move s c moved, State.joinGroup_groups, State.leaveGroup_groups, Option.some.injEq]
      by_cases left : k = g
      · rw [if_neg fun joined => moved (left.trans joined.symm), if_pos left, if_pos left]
      · simp only [left, if_false]

/-- What a SET_CHANNEL does to window and state part leaves the Group Table alone (R85–R88). -/
theorem State.applyModeChange_groups (s : State) (c : ChanNo) (old new : ChannelConfig) :
    (s.applyModeChange c old new).groups = s.groups := by
  unfold State.applyModeChange
  split
  · split <;> simp
  · split
    · simp
    · split <;> simp

theorem State.setConfig_groups (s : State) (c : ChanNo) (new : ChannelConfig) :
    (s.setConfig c new).groups =
      ((s.modConfig c fun _ => new).changeGroup c (s.chan c).config.group new.group).groups :=
  State.applyModeChange_groups _ _ _ _

/-- Settles O44, by the groups left and joined. -/
theorem groupChangeMovesMember : Obligations.GroupChangeMovesMember := by
  intro s c new old t g
  rw [show t.groups = _ from s.setConfig_groups c new]
  exact State.changeGroup_groups _ c old new.group g

/-! ### Counting members (R11) -/

/-- Channel `c` names group `g`. -/
def State.names (s : State) (g : Fin 8) (c : ChanNo) : Bool := decide ((s.chan c).config.group = some g)

/-- A member count, counted by channel number. -/
theorem State.memberCount_eq (s : State) (g : Fin 8) : s.memberCount g = allChannels.countP (s.names g) := by
  unfold State.memberCount
  rw [State.channels_toList, List.filter_map, List.length_map, List.countP_eq_length_filter]
  rfl

theorem State.memberCount_congr {s t : State} (h : ∀ c, (t.chan c).config = (s.chan c).config) (g : Fin 8) :
    t.memberCount g = s.memberCount g := by
  have same : t.names g = s.names g := funext fun c => by simp only [State.names, h c]
  rw [State.memberCount_eq, State.memberCount_eq, same]

/-- A group that some channel names has a member. -/
theorem State.memberCount_pos {s : State} {c : ChanNo} {g : Fin 8} (h : (s.chan c).config.group = some g) :
    0 < s.memberCount g := by
  rw [State.memberCount_eq, List.countP_pos_iff]
  exact ⟨c, mem_allChannels c, by simp [State.names, h]⟩

/-- One channel's change of group changes the counts by that channel. -/
theorem State.memberCount_change {s t : State} {c : ChanNo} (h : ∀ d, d ≠ c → (t.chan d).config = (s.chan d).config)
    (g : Fin 8) :
    t.memberCount g + (if (s.chan c).config.group = some g then 1 else 0) =
      s.memberCount g + (if (t.chan c).config.group = some g then 1 else 0) := by
  obtain ⟨before, after, split⟩ := List.append_of_mem (mem_allChannels c)
  have distinct : (before ++ c :: after).Nodup := split ▸ allChannels_nodup
  have elsewhere : ∀ d ∈ before ++ after, t.names g d = s.names g d := by
    intro d hd
    have : d ≠ c := fun e => (List.nodup_cons.mp (List.nodup_middle.mp distinct)).1 (e ▸ hd)
    simp only [State.names, h d this]
  have hb : before.countP (t.names g) = before.countP (s.names g) :=
    List.countP_congr fun d hd => by rw [elsewhere d (List.mem_append_left _ hd)]
  have ha : after.countP (t.names g) = after.countP (s.names g) :=
    List.countP_congr fun d hd => by rw [elsewhere d (List.mem_append_right _ hd)]
  rw [State.memberCount_eq, State.memberCount_eq, split]
  simp only [List.countP_append, List.countP_cons, hb, ha, State.names, decide_eq_true_eq]
  omega

theorem State.sameElsewhere.groups {s t : State} (h : s.sameElsewhere t) : s.groups = t.groups := h.2.2.1

/-! ### The tier chosen at an accepted close (R51–R53) -/

/-- An event of channel `c` leaves the Group Table alone, but for the tier of the group that the channel names. -/
def State.tierMoved (s t : State) (c : ChanNo) : Prop :=
  t.groups = s.groups ∨ ∃ (g : Fin 8) (tier : Tier), (s.chan c).config.group = some g ∧
    t.groups = s.groups.set g { s.groups[g] with tier := tier }

theorem State.takeAccepted_groups (s : State) (c : ChanNo) (p : Profile) (mean : Nat) (tier : Tier) :
    (s.takeAccepted c p mean tier).groups = s.groups := by
  have groups := (s.sameElsewhere_acceptedMove c p mean).groups
  unfold State.takeAccepted
  dsimp only
  split <;> simp [groups]

theorem State.tierMoved_selectTier (s : State) (c : ChanNo) (p : Profile) (rate : Nat) :
    s.tierMoved (s.selectTier c p rate) c := by
  unfold State.selectTier
  split
  · exact .inl rfl
  · split
    · exact .inl rfl
    · exact .inr ⟨_, _, by assumption, rfl⟩

theorem State.tierMoved_acceptWindow (s : State) (c : ChanNo) (p : Profile) (mean : Nat) :
    s.tierMoved (s.acceptWindow c p mean) c := by
  unfold State.acceptWindow State.tierMoved
  dsimp only
  rw [State.takeAccepted_groups]
  simpa [State.tierMoved] using State.tierMoved_selectTier
    (((s.modRun c fun r => { r with rejectRun := 0 }).raiseWindows c WindowCounts.accept).modWindow c fun w =>
      { w with lastRate := rateOf (s.chan c).window.lastMean mean, lastMean := some mean }) c p _

theorem State.rejectWindow_groups (s : State) (c : ChanNo) (p : Profile) (spread : Nat) :
    (s.rejectWindow c p spread).groups = s.groups :=
  (State.sameElsewhere_takeRejected
    ((s.modRun c fun r => { r with rejectRun := min (r.rejectRun + 1) Config.rejectRunMax }).raiseWindows c
      WindowCounts.reject) c p spread).groups

theorem State.tierMoved_deliverSample (s : State) (c : ChanNo) (x : Sample) : s.tierMoved (s.deliverSample c x) c := by
  unfold State.deliverSample
  dsimp only
  split
  · split
    · exact .inl rfl
    · unfold State.closeWindow
      dsimp only
      split
      · exact .inl (State.rejectWindow_groups _ _ _ _)
      · simpa [State.tierMoved] using State.tierMoved_acceptWindow (s.modWindow c fun x => { x with openWin := none }) c
          (s.profileOf c) (s.windowWith c x).mean
  · exact .inl rfl

/-! ### The invariant (R11, R54) -/

theorem groupsConsistent_of_sameGroups {s t : State} (h : s.groupsConsistent)
    (config : ∀ c, (t.chan c).config = (s.chan c).config) (groups : t.groups = s.groups) : t.groupsConsistent := by
  intro g
  rw [groups, State.memberCount_congr config g]
  exact h g

/-- A tier goes only to a group with a member (R54). -/
theorem groupsConsistent_of_tierMoved {s t : State} {c : ChanNo} (h : s.groupsConsistent)
    (config : ∀ d, (t.chan d).config = (s.chan d).config) (moved : s.tierMoved t c) : t.groupsConsistent := by
  obtain groups | ⟨k, tier, named, groups⟩ := moved
  · exact groupsConsistent_of_sameGroups h config groups
  intro g
  obtain ⟨members, empty⟩ := h g
  rw [groups, State.memberCount_congr config g]
  by_cases e : k = g
  · subst e
    have := State.memberCount_pos named
    simp only [Fin.getElem_fin, Vector.getElem_set_self] at members ⊢
    exact ⟨members, fun none_left => absurd none_left (by omega)⟩
  · simpa [Vector.getElem_set_ne, Fin.val_ne_of_ne e] using And.intro members empty

/-- A change of group moves one member, in the count as in the table (R12). -/
theorem groupsConsistent_setConfig {s : State} (h : s.groupsConsistent) (c : ChanNo) (new : ChannelConfig) :
    (s.setConfig c new).groupsConsistent := by
  obtain ⟨-, -, -, -, -, -, -, config, others⟩ := setConfig_frame s c new
  intro g
  obtain ⟨members, empty⟩ := h g
  have count := State.memberCount_change (s := s) (t := s.setConfig c new) (c := c) (fun d hd => by rw [others d hd]) g
  rw [config] at count
  rw [groupChangeMovesMember s c new g]
  by_cases same : (s.chan c).config.group = new.group
  · rw [same] at count
    rw [if_pos same]
    exact ⟨by omega, empty⟩
  rw [if_neg same]
  by_cases left : (s.chan c).config.group = some g
  · have stays : new.group ≠ some g := fun e => same (left.trans e.symm)
    rw [if_pos left, if_neg stays] at count
    rw [if_pos left]
    exact ⟨by dsimp only; omega, fun none_left => if_pos none_left⟩
  · rw [if_neg left] at count
    rw [if_neg left]
    by_cases joined : new.group = some g
    · rw [if_pos joined] at count
      rw [if_pos joined]
      exact ⟨by dsimp only; omega, fun none_left => absurd none_left (Nat.succ_ne_zero _)⟩
    · rw [if_neg joined] at count
      rw [if_neg joined]
      exact ⟨by omega, empty⟩

/-- A restart keeps the members and gives every group tier 0 (R62, R89). -/
theorem groupsConsistent_restart {s : State} (h : s.groupsConsistent) (tag : Byte) :
    (s.restart tag).groupsConsistent := by
  intro g
  rw [State.memberCount_congr (sameConfiguration_restart s tag).config g]
  simpa [State.restart] using (h g).1

theorem groupsConsistent_heldIn (cause : PowerCause) : (State.heldIn cause).groupsConsistent := by
  have nobody : ∀ g, (State.heldIn cause).memberCount g = 0 := fun g => by
    simp [State.memberCount_eq, List.countP_eq_zero, State.names, State.chan, State.heldIn, Channel.initial]
  intro g
  rw [nobody]
  simp [State.heldIn]

theorem keptByEvents_groupsConsistent : KeptByEvents State.groupsConsistent where
  congr h e := groupsConsistent_of_sameGroups h (fun c => by rw [e.chan c]) e.groups
  sample s c x h := groupsConsistent_of_tierMoved h
    (channelSide_deliverSample (P := (· = c)) s c rfl x).config (s.tierMoved_deliverSample c x)
  abandon s c h := groupsConsistent_of_sameGroups h (channelSide_abandonRunning (P := (· = c)) s c rfl).config (by
    unfold State.abandonRunning
    split <;> simp)
  silence s c h := groupsConsistent_of_sameGroups h (channelSide_silenceEvent (P := (· = c)) s c rfl).config (by simp)
  resume s c h := groupsConsistent_of_sameGroups h (channelSide_resumeEvent (P := (· = c)) s c rfl).config
    (s.sameElsewhere_resumeEvent c).groups
  unroute s c h := groupsConsistent_of_sameGroups h (channelSide_unrouteEvent (P := (· = c)) s c rfl).config (by simp)
  drift s c _ h := groupsConsistent_of_sameGroups h (channelSide_driftStep (P := (· = c)) s c rfl).config rfl
  stuck s c _ h := groupsConsistent_of_sameGroups h (channelSide_stuckExpiry (P := (· = c)) s c rfl).config
    (s.sameElsewhere_stuckExpiry c).groups
  force s c _ h := groupsConsistent_of_sameGroups h (channelSide_forceSettling (P := (· = c)) s c rfl).config
    (s.sameElsewhere_forceSettling c).groups
  restart _ tag h := groupsConsistent_restart h tag
  tick s h := groupsConsistent_of_sameGroups h (sameConfiguration_tick s).config rfl

/-- Settles O54: a change of group moves one member in table and count alike, and a tier goes to a group with a
member. -/
theorem stepKeepsGroupsConsistent : Obligations.StepKeepsGroupsConsistent := fun _ _ =>
  keptByEvents_groupsConsistent.keeps_step groupsConsistent_heldIn (fun _ c new h => groupsConsistent_setConfig h c new)
    fun _ _ _ _ h => groupsConsistent_of_sameGroups h (fun _ => rfl) rfl

end Sys2Proof.Machine
end

section
/-! The answers of the requests that read (R15, R18, R40, R168, R184), and the power reset with its release (R150). -/

namespace Sys2Proof.Machine

/-! ### Data blocks (R192) -/

/-- The 13 bytes of DESCRIBE (R168). -/
theorem describeData_eq (cause : ResetCause) (tick : Tick) :
    describeData cause tick = [0x63, 0x0A, 1, 64, 16, 8, 24, 96] ++ [cause.code, cause.tagByte] ++
      [tick.extractLsb' 16 8, tick.extractLsb' 8 8, tick.extractLsb' 0 8] := rfl

theorem State.routesData_active (s : State) :
    s.routesData .active =
      BitVec.ofNat 8 s.inlet.active.length :: s.inlet.active.flatMap fun a => routeBytes a.route (some a.track) := by
  have entries : activeEntry = fun a => routeBytes a.route (some a.track) := funext activeEntry_eq
  rw [State.routesData, entries]
  rfl

theorem State.routesData_shadow (s : State) :
    s.routesData .shadow =
      BitVec.ofNat 8 s.inlet.shadow.length :: s.inlet.shadow.flatMap fun r => routeBytes r none := by
  have entries : shadowEntry = fun r => routeBytes r none := funext shadowEntry_eq
  rw [State.routesData, entries]
  rfl

theorem bankOf_of_le {b : Byte} (h : 2 ≤ b.toNat) : bankOf b = none := by
  rw [bankOf, if_neg (byte_ne_of_lt (Nat.lt_of_lt_of_le (by decide) h)),
    if_neg (byte_ne_of_lt (Nat.lt_of_lt_of_le (by decide) h))]

theorem counterSetOf_none {kind b : Byte} (h : 2 ≤ kind.toNat ∨ kind = 1 ∧ 64 ≤ b.toNat) :
    counterSetOf kind b = none := by
  obtain large | ⟨rfl, large⟩ := h
  · rw [counterSetOf, if_neg (byte_ne_of_lt (Nat.lt_of_lt_of_le (by decide) large)),
      if_neg (byte_ne_of_lt (Nat.lt_of_lt_of_le (by decide) large))]
  · simp [counterSetOf, channelOf_of_le large]

/-! ### The reading requests -/

section
variable {s : State} {q : Request} {rest : List Request} (ready : s.ready q rest)
include ready

/-- GET_PROFILE of a profile 0–15 (R15). -/
theorem exec_getProfile_read {b : Byte} {n : Fin 16} (command : q.command = 0x11) (params : q.params = [b])
    (h : b.toNat = n.val) : exec .getProfile s = .next (s.answered q rest .ok (profileBytes n s.profiles[n])) := by
  refine exec_accepted ready rfl command ?_ rfl
  simp only [ownGetProfile, params, toFin_of_eq h, profileData_eq]

theorem exec_getProfile_refused {b : Byte} (command : q.command = 0x11) (params : q.params = [b])
    (h : 16 ≤ b.toNat) : exec .getProfile s = .next (s.answered q rest .badValue []) := by
  refine exec_refused ready rfl command ?_
  simp only [ownGetProfile, params, toFin_of_le h]

theorem exec_getChannel_read {b : Byte} {c : ChanNo} (command : q.command = 0x13) (params : q.params = [b])
    (h : b.toNat = c.val) : exec .getChannel s = .next (s.answered q rest .ok (s.channelBytes c)) := by
  refine exec_accepted ready rfl command ?_ rfl
  simp only [ownGetChannel, params, channelOf_of_eq h, State.snapshot_eq]

theorem exec_getRoutes_read {b : Byte} {bank : Bank} (command : q.command = 0x24) (params : q.params = [b])
    (h : bankOf b = some bank) : exec .getRoutes s = .next (s.answered q rest .ok (s.routesData bank)) := by
  refine exec_accepted ready rfl command ?_ rfl
  simp only [ownGetRoutes, params, h]

theorem exec_getRoutes_refused {b : Byte} (command : q.command = 0x24) (params : q.params = [b])
    (h : 2 ≤ b.toNat) : exec .getRoutes s = .next (s.answered q rest .badValue []) := by
  refine exec_refused ready rfl command ?_
  simp only [ownGetRoutes, params, bankOf_of_le h]

theorem exec_readCounters_read {kind b : Byte} {set : CounterSet} (command : q.command = 0x32)
    (params : q.params = [kind, b]) (h : counterSetOf kind b = some set) :
    exec .readCounters s = .next (s.answered q rest .ok (s.countersData set)) := by
  refine exec_accepted ready rfl command ?_ rfl
  simp only [ownReadCounters, params, h]

theorem exec_readCounters_refused {kind b : Byte} (command : q.command = 0x32) (params : q.params = [kind, b])
    (h : 2 ≤ kind.toNat ∨ kind = 1 ∧ 64 ≤ b.toNat) :
    exec .readCounters s = .next (s.answered q rest .badValue []) := by
  refine exec_refused ready rfl command ?_
  simp only [ownReadCounters, params, counterSetOf_none h]

theorem exec_describe_read (command : q.command = 0x01) (params : q.params = []) :
    exec .describe s = .next (s.answered q rest .ok (describeData s.link.resetCause s.time)) := by
  refine exec_accepted ready rfl command ?_ rfl
  simp only [ownDescribe, params, if_true]

end

/-- Settles O41, row by row. -/
theorem readRequestsAnswered : Obligations.ReadRequestsAnswered := by
  intro s q rest ready
  refine ⟨fun command params => ?_, fun _ _ => exec_getProfile_read ready, fun _ => exec_getProfile_refused ready,
    fun _ _ => exec_getChannel_read ready, fun command params => ?_, fun command params => ?_,
    fun _ => exec_getRoutes_refused ready, fun b command params => ?_, fun b c command params h => ?_,
    fun _ _ => exec_readCounters_refused ready⟩
  · rw [exec_describe_read ready command params, describeData_eq]
    cases s.link.resetCause <;> rfl
  · rw [exec_getRoutes_read ready command params (bank := .active) rfl, State.routesData_active]
  · rw [exec_getRoutes_read ready command params (bank := .shadow) rfl, State.routesData_shadow]
  · rw [exec_readCounters_read ready command params (set := .global) rfl, State.countersData_global]
  · have set : counterSetOf 1 b = some (.channel c) := by simp [counterSetOf, channelOf_of_eq h]
    rw [exec_readCounters_read ready command params set, State.countersData_channel]

/-! ### Power reset and release (R150) -/

theorem State.chan_heldIn (cause : PowerCause) (c : ChanNo) : (State.heldIn cause).chan c = .initial := by
  simp [State.chan, State.heldIn]

theorem State.groups_heldIn (cause : PowerCause) (g : Fin 8) :
    (State.heldIn cause).groups[g] = { tier := 0, members := 0 } := by simp [State.heldIn]

theorem State.profiles_heldIn (cause : PowerCause) (n : Fin 16) : (State.heldIn cause).profiles[n] = .initial := by
  simp [State.heldIn]

theorem CounterBank.get_initial (k : GlobalCounter) : CounterBank.initial.get k = 0 := by
  simp [CounterBank.get, CounterBank.initial]

theorem CounterBank.windows_initial (c : ChanNo) :
    CounterBank.initial.windows[c] = { accepted := 0, rejected := 0, abandoned := 0 } := by
  simp [CounterBank.initial]

/-- The release of a held part starts it and its announce cycle (R127, R150). -/
theorem exec_release_starts {s : State} {cause : PowerCause} (power : s.power = .held cause) (held : s.heldOk) :
    exec .resetNRelease s =
      .next { s with power := .running, link := { s.link with announceDue := true, announceTimer := some 50 } } := by
  rw [exec_release_of_held power]
  generalize hl : s.pending = l
  rw [held cause power, hl]
  cases cause <;> rfl

/-- Settles O5, block by block. -/
theorem powerResetAndRelease : Obligations.PowerResetAndRelease := by
  refine ⟨fun s cause => ⟨{ State.heldIn cause with pending := s.pending }, rfl, ?_⟩, fun s => ⟨?_, ?_⟩⟩
  · exact ⟨rfl, rfl, rfl, rfl, State.chan_heldIn cause, State.groups_heldIn cause, State.profiles_heldIn cause, rfl,
      rfl, Events.del_initial, rfl, by cases cause <;> rfl, rfl, rfl, rfl, rfl, rfl, rfl, rfl, rfl, rfl, rfl,
      CounterBank.get_initial, CounterBank.windows_initial⟩
  · exact fun _ => exec_release_starts
  · exact exec_release_of_running

end Sys2Proof.Machine
end

section
/-! The profile block of R191, both ways, and SET_PROFILE (R13). -/

namespace Sys2Proof.Machine

/-! ### The block, byte by byte -/

theorem vector5_toList (v : Vector Nat 5) : v.toList = [v[0], v[1], v[2], v[3], v[4]] := by
  apply List.ext_getElem
  · simp
  · intro i _ h
    simp only [List.length_cons, List.length_nil] at h
    interval_cases i <;> simp

/-- The 28 bytes of R191 at their offsets. -/
theorem profileBytes_eq (n : Fin 16) (p : Profile) :
    profileBytes n p =
      [BitVec.ofNat 8 n.val, BitVec.ofNat 8 p.lengths[0], BitVec.ofNat 8 p.lengths[1], BitVec.ofNat 8 p.lengths[2],
       BitVec.ofNat 8 p.lengths[3], BitVec.ofNat 8 p.lengths[4], BitVec.ofNat 8 (p.b1 / 256),
       BitVec.ofNat 8 (p.b1 % 256), BitVec.ofNat 8 (p.b2 / 256), BitVec.ofNat 8 (p.b2 % 256), BitVec.ofNat 8 (p.b3 / 256),
       BitVec.ofNat 8 (p.b3 % 256), BitVec.ofNat 8 (p.b4 / 256), BitVec.ofNat 8 (p.b4 % 256),
       if p.fixedTier then 1 else 0, BitVec.ofNat 8 (p.spreadLimit / 256), BitVec.ofNat 8 (p.spreadLimit % 256),
       BitVec.ofNat 8 p.rejectLimit, BitVec.ofNat 8 (p.onset / 256), BitVec.ofNat 8 (p.onset % 256),
       BitVec.ofNat 8 (p.release / 256), BitVec.ofNat 8 (p.release % 256), BitVec.ofNat 8 p.confirm,
       BitVec.ofNat 8 p.maxActive, BitVec.ofNat 8 p.driftInterval, BitVec.ofNat 8 p.driftStep,
       BitVec.ofNat 8 (p.reportDelta / 256), BitVec.ofNat 8 (p.reportDelta % 256)] := by
  simp only [profileBytes, vector5_toList, twoBytes, List.map_cons, List.map_nil, List.cons_append, List.nil_append]

/-! ### Reading a block and writing it again -/

theorem ofNat_byteAt (block : List Byte) (i : Nat) : BitVec.ofNat 8 (byteAt block i) = block.getD i 0 := by
  simp [byteAt]

theorem ofNat_wordAt_div (block : List Byte) (i : Nat) : BitVec.ofNat 8 (wordAt block i / 256) = block.getD i 0 := by
  have low : byteAt block (i + 1) < 256 := (block.getD (i + 1) 0).isLt
  rw [show wordAt block i / 256 = byteAt block i by unfold wordAt; omega, ofNat_byteAt]

theorem ofNat_wordAt_mod (block : List Byte) (i : Nat) :
    BitVec.ofNat 8 (wordAt block i % 256) = block.getD (i + 1) 0 := by
  have low : byteAt block (i + 1) < 256 := (block.getD (i + 1) 0).isLt
  rw [show wordAt block i % 256 = byteAt block (i + 1) by unfold wordAt; omega, ofNat_byteAt]

/-- A list of bytes, byte by byte. -/
theorem map_getD_range (block : List Byte) : (List.range block.length).map (block.getD · 0) = block := by
  apply List.ext_getElem
  · simp
  · intro i _ h
    rw [List.getElem_map, List.getElem_range, List.getD_eq_getElem _ _ h]

/-- The block of the fields read from a block is that block, its number and its flag byte being those read. -/
theorem profileBytes_profileFields {block : List Byte} {n : Fin 16} {fixed : Bool} (length : block.length = 28)
    (number : byteAt block 0 = n.val) (flag : block.getD 14 0 = if fixed then 1 else 0) :
    profileBytes n (profileFields block fixed) = block := by
  have bytes := map_getD_range block
  rw [length] at bytes
  have fixed_byte : (if (profileFields block fixed).fixedTier then 1 else 0) = block.getD 14 0 := flag.symm
  rw [profileBytes_eq, ← number, fixed_byte]
  simp only [profileFields, ofNat_wordAt_div, ofNat_wordAt_mod]
  simp only [Vector.getElem_mk, List.getElem_toArray, List.getElem_cons_zero, List.getElem_cons_succ, ofNat_byteAt]
  exact bytes

theorem flagOf_eq_some : ∀ {b : Byte} {fixed : Bool}, flagOf b = some fixed ↔ b = if fixed then 1 else 0 := by
  decide +kernel

/-! ### Writing a block and reading it again -/

theorem byte_toNat {n : Nat} (h : n < 256) : (BitVec.ofNat 8 n).toNat = n := by
  rw [BitVec.toNat_ofNat]
  omega

theorem word_toNat {n : Nat} (h : n < 65536) :
    (BitVec.ofNat 8 (n / 256)).toNat * 256 + (BitVec.ofNat 8 (n % 256)).toNat = n := by
  rw [byte_toNat (by omega), byte_toNat (by omega)]
  omega

/-- Fields in their ranges fit their bytes. -/
theorem profileFields_profileBytes (n : Fin 16) {p : Profile} (valid : p.valid = true) :
    profileFields (profileBytes n p) p.fixedTier = p := by
  obtain ⟨lengths, h12, h23, h34, h4, hs, -, hr, -, ho, hrel, -, -, hc, hm, -, hd, hds, hrd⟩ := p.valid_iff.mp valid
  have short : ∀ (i : Nat) (h : i < 5), (BitVec.ofNat 8 p.lengths[i]).toNat = p.lengths[i] := fun i h =>
    byte_toNat (by have := (lengths _ (Vector.mem_toList_iff.mpr (Vector.getElem_mem h))).2; omega)
  have windows : (#v[(BitVec.ofNat 8 p.lengths[0]).toNat, (BitVec.ofNat 8 p.lengths[1]).toNat,
      (BitVec.ofNat 8 p.lengths[2]).toNat, (BitVec.ofNat 8 p.lengths[3]).toNat,
      (BitVec.ofNat 8 p.lengths[4]).toNat] : Vector Nat 5) = p.lengths := by
    ext i h
    rw [← short i h]
    interval_cases i <;> rfl
  show _ = Profile.mk p.lengths p.b1 p.b2 p.b3 p.b4 p.fixedTier p.spreadLimit p.rejectLimit p.onset p.release p.confirm
    p.maxActive p.driftInterval p.driftStep p.reportDelta
  rw [profileBytes_eq, profileFields, Profile.mk.injEq]
  exact ⟨windows, word_toNat (by omega), word_toNat (by omega), word_toNat (by omega), word_toNat (by omega), rfl,
    word_toNat (by omega), byte_toNat (by omega), word_toNat (by omega), word_toNat (by omega), byte_toNat (by omega),
    byte_toNat (by omega), byte_toNat (by omega), byte_toNat (by omega), word_toNat (by omega)⟩

/-! ### The blocks that pass the checks of R13 -/

theorem toFin_eq_some {n k : Nat} {i : Fin n} (h : toFin n k = some i) : k = i.val := by
  unfold toFin at h
  split at h
  · cases h
    rfl
  · cases h

/-- The number, the flag and the fields that a block which passes is read as. -/
theorem parseProfile_eq_some {block : List Byte} {n : Fin 16} {p : Profile} :
    parseProfile block = some (n, p) ↔
      byteAt block 0 = n.val ∧ flagOf (block.getD 14 0) = some p.fixedTier ∧ profileFields block p.fixedTier = p ∧
        p.valid = true := by
  constructor
  · intro parsed
    unfold parseProfile at parsed
    split at parsed
    · rename_i number flag
      split at parsed
      · rename_i valid
        cases parsed
        exact ⟨toFin_eq_some number, flag, rfl, valid⟩
      · cases parsed
    · cases parsed
  · rintro ⟨number, flag, fields, valid⟩
    simp only [parseProfile, toFin_of_eq number, flag, fields, valid, if_true]

/-- A block passes exactly when it is the block of a profile number and of valid fields (R13, R191). -/
theorem parseProfile_iff {block : List Byte} {n : Fin 16} {p : Profile} (length : block.length = 28) :
    parseProfile block = some (n, p) ↔ p.valid = true ∧ block = profileBytes n p := by
  rw [parseProfile_eq_some]
  constructor
  · rintro ⟨number, flag, fields, valid⟩
    have written := profileBytes_profileFields length number (flagOf_eq_some.mp flag)
    rw [fields] at written
    exact ⟨valid, written.symm⟩
  · rintro ⟨valid, rfl⟩
    refine ⟨?_, ?_, profileFields_profileBytes n valid, valid⟩
    · rw [profileBytes_eq]
      exact byte_toNat (by omega)
    · rw [profileBytes_eq]
      exact flagOf_eq_some.mpr rfl

/-- A block that passes replaces the profile it names. -/
theorem exec_setProfile_stored {s : State} {q : Request} {rest : List Request} (ready : s.ready q rest)
    (command : q.command = 0x10) (length : q.params.length = 28) {n : Fin 16} {p : Profile}
    (parsed : parseProfile q.params = some (n, p)) :
    exec .setProfile s = .next { s.answered q rest .ok [] with profiles := s.profiles.set n p } := by
  refine exec_accepted ready rfl command (u := { s with profiles := s.profiles.set n p }) ?_ rfl
  simp only [ownSetProfile, profileBlockLength, length, if_true, parsed]

/-- Settles O42: a block that passes is read and written back to itself, and the other way round. -/
theorem setProfileReplacesOrRefuses : Obligations.SetProfileReplacesOrRefuses := by
  unfold Obligations.SetProfileReplacesOrRefuses
  intro inRanges
  refine ⟨fun s q rest ready command length => ⟨fun n p => exec_setProfile_stored ready command length,
    exec_setProfile_refused ready command length⟩, fun block n p length => ?_, Profile.valid_iff, ?_⟩
  · rw [parseProfile_iff length, p.valid_iff]
  · exact fun s q rest b n ready => exec_getProfile_read ready

end Sys2Proof.Machine
end

section
/-! SET_CHANNEL by the cases of R16, REBASE (R84), and what the requests on a channel refuse (R16, R18, R84). -/

namespace Sys2Proof.Machine

/-! ### Ends of a channel's activity (R57, R65, R67, R68) -/

section
variable (s : State) (c : ChanNo)

theorem State.chan_enterOff :
    (s.enterOff c).chan c =
      { s.chan c with
        run := { (s.chan c).run with state := .off, engaged := false, confirm := 0, rejectRun := 0, baseline := none,
                                     maxActive := none, quiet := none, lastValue := none }
        window := { (s.chan c).window with lastMean := none, lastRate := 0 } } := by
  simp [State.enterOff, State.forgetMean]

/-- A channel that ends what it was doing and settles anew. -/
theorem State.chan_endSettling (x : ReleaseReason) (cause : CaptureCause) :
    (((s.abandon c).endEngagement c x).enterSettling c cause).chan c =
      { s.chan c with
        window := { (s.chan c).window with openWin := none, lastMean := none, lastRate := 0 }
        run := { (s.chan c).run with state := .settling, engaged := false, confirm := 0, rejectRun := 0,
                                     baseline := none, cause := cause, maxActive := none, quiet := none } } := by
  rw [State.chan_enterSettling, State.chan_endEngagement, State.chan_abandon]
  split <;> rfl

/-- A channel that ends what it was doing and is off. -/
theorem State.chan_endOff (x : ReleaseReason) :
    (((s.abandon c).endEngagement c x).enterOff c).chan c =
      { s.chan c with
        window := { (s.chan c).window with openWin := none, lastMean := none, lastRate := 0 }
        run := { (s.chan c).run with state := .off, engaged := false, confirm := 0, rejectRun := 0, baseline := none,
                                     maxActive := none, quiet := none, lastValue := none } } := by
  rw [State.chan_enterOff, State.chan_endEngagement, State.chan_abandon]
  split <;> rfl

/-- Entries into SETTLING and OFF hand over no record. -/
theorem State.sameRecords_enterSettling {s u : State} (h : s.sameRecords u) (cause : CaptureCause) :
    (s.enterSettling c cause).sameRecords u := State.sameRecords_modWindow c (State.sameRecords_modRun c h _) _

theorem State.sameRecords_enterOff {s u : State} (h : s.sameRecords u) : (s.enterOff c).sameRecords u :=
  State.sameRecords_modWindow c (State.sameRecords_modRun c h _) _

/-- The RELEASE of a channel that ends what it was doing, and no other record (R65). -/
theorem State.sameRecords_end {s u : State} (h : s.sameRecords u) (x : ReleaseReason) :
    ((s.abandon c).endEngagement c x).sameRecords
      (u.handAll c (if (s.chan c).run.engaged then [.release x none] else [])) := by
  have ended := State.sameRecords_endEngagement c (State.sameRecords_abandon c h) x
  rw [State.chan_abandon] at ended
  exact ended

/-- The counts of the channel's own window, abandoned if it was open (R57, R61). -/
theorem State.end_windows_same (x : ReleaseReason) :
    ((s.abandon c).endEngagement c x).counters.windows[c] = s.abandonCounts c := by
  rw [State.endEngagement_windows, State.abandon_windows, if_pos rfl]

theorem State.end_windows_other (x : ReleaseReason) {d : ChanNo} (h : d ≠ c) :
    ((s.abandon c).endEngagement c x).counters.windows[d] = s.counters.windows[d] := by
  rw [State.endEngagement_windows, State.abandon_windows, if_neg h]

end

/-! ### The five bytes of SET_CHANNEL (R16, R191) -/

theorem modeOf_of_le {b : Byte} (h : 3 ≤ b.toNat) : modeOf b = none := by
  rw [modeOf, if_neg (byte_ne_of_lt (Nat.lt_of_lt_of_le (by decide) h)),
    if_neg (byte_ne_of_lt (Nat.lt_of_lt_of_le (by decide) h)),
    if_neg (byte_ne_of_lt (Nat.lt_of_lt_of_le (by decide) h))]

theorem groupOf_of_le {b : Byte} (h : 9 ≤ b.toNat) : groupOf b = none := by
  rw [groupOf, if_neg (byte_ne_of_lt (Nat.lt_of_lt_of_le (by decide) h)), toFin_of_le (by omega)]
  rfl

theorem polarityOf_of_le {b : Byte} (h : 2 ≤ b.toNat) : polarityOf b = none := by
  rw [polarityOf, if_neg (byte_ne_of_lt (Nat.lt_of_lt_of_le (by decide) h)),
    if_neg (byte_ne_of_lt (Nat.lt_of_lt_of_le (by decide) h))]

/-- A byte out of its range is the byte of no configuration (R16). -/
theorem parseChannelConfig_none {b0 b1 b2 b3 b4 : Byte}
    (h : 64 ≤ b0.toNat ∨ 3 ≤ b1.toNat ∨ 16 ≤ b2.toNat ∨ 9 ≤ b3.toNat ∨ 2 ≤ b4.toNat) :
    parseChannelConfig b0 b1 b2 b3 b4 = none := by
  unfold parseChannelConfig
  split
  · rename_i channel mode profile group polarity
    obtain h | h | h | h | h := h
    · rw [channelOf_of_le h] at channel
      cases channel
    · rw [modeOf_of_le h] at mode
      cases mode
    · rw [toFin_of_le h] at profile
      cases profile
    · rw [groupOf_of_le h] at group
      cases group
    · rw [polarityOf_of_le h] at polarity
      cases polarity
  · rfl

/-! ### The part after its answer -/

section
variable (s : State) (q : Request) (rest : List Request) (x : Status) (data : List Byte)

theorem State.chan_answered (c : ChanNo) : (s.answered q rest x data).chan c = s.chan c := rfl

theorem State.answered_counters : (s.answered q rest x data).counters = s.counters := rfl

theorem State.answered_mgmt : (s.answered q rest x data).mgmt = s.mgmt.answered q rest x data := rfl

theorem State.sameRecords_answered {s u : State} (h : s.sameRecords u) :
    (s.answered q rest x data).sameRecords u := ⟨h.1, h.2⟩

end

/-! ### The requests on a channel (R16, R18, R84) -/

section
variable {s : State} {q : Request} {rest : List Request} (ready : s.ready q rest)
include ready

/-- A running channel is forced into SETTLING. -/
theorem exec_rebase_forced {b : Byte} {c : ChanNo} (command : q.command = 0x14) (params : q.params = [b])
    (h : b.toNat = c.val) (on : (s.chan c).config.mode ≠ .off) :
    exec .rebase s = .next ((s.forceSettling c).answered q rest .ok []) := by
  refine exec_accepted ready rfl command ?_ (channelSide_forceSettling (P := (· = c)) s c rfl).mgmt
  have running : (s.chan c).running = true := by simpa [Channel.running] using on
  simp only [ownRebase, params, channelOf_of_eq h, running, if_true]

theorem exec_rebase_off {b : Byte} {c : ChanNo} (command : q.command = 0x14) (params : q.params = [b])
    (h : b.toNat = c.val) (off : (s.chan c).config.mode = .off) :
    exec .rebase s = .next (s.answered q rest .badState []) := by
  refine exec_refused ready rfl command ?_
  have stopped : (s.chan c).running = false := by simp [Channel.running, off]
  simp [ownRebase, params, channelOf_of_eq h, stopped]

theorem exec_rebase_refused {b : Byte} (command : q.command = 0x14) (params : q.params = [b]) (h : 64 ≤ b.toNat) :
    exec .rebase s = .next (s.answered q rest .badValue []) := by
  refine exec_refused ready rfl command ?_
  simp only [ownRebase, params, channelOf_of_le h]

theorem exec_getChannel_refused {b : Byte} (command : q.command = 0x13) (params : q.params = [b])
    (h : 64 ≤ b.toNat) : exec .getChannel s = .next (s.answered q rest .badValue []) := by
  refine exec_refused ready rfl command ?_
  simp only [ownGetChannel, params, channelOf_of_le h]

theorem exec_setChannel_refused {b0 b1 b2 b3 b4 : Byte} (command : q.command = 0x12)
    (params : q.params = [b0, b1, b2, b3, b4])
    (h : 64 ≤ b0.toNat ∨ 3 ≤ b1.toNat ∨ 16 ≤ b2.toNat ∨ 9 ≤ b3.toNat ∨ 2 ≤ b4.toNat) :
    exec .setChannel s = .next (s.answered q rest .badValue []) := by
  refine exec_refused ready rfl command ?_
  simp only [ownSetChannel, params, parseChannelConfig_none h]

/-- The bytes of a channel and a configuration store it. -/
theorem exec_setChannel_stored {c : ChanNo} {new : ChannelConfig} (command : q.command = 0x12)
    (params : q.params = channelRequestBytes c new) :
    exec .setChannel s = .next ((s.setConfig c new).answered q rest .ok []) := by
  obtain ⟨-, -, -, -, -, mgmt, -⟩ := setConfig_frame s c new
  obtain ⟨b0, b1, b2, b3, b4, bytes, parsed⟩ := parseChannelConfig_bytes c new
  refine exec_accepted ready rfl command ?_ mgmt
  simp only [ownSetChannel, params.trans bytes, parsed]

end

/-- Settles O45: each request by its byte, and the forced channel by what an ended engagement and an entry into SETTLING
make of it. -/
theorem rebaseAndChannelRefusals : Obligations.RebaseAndChannelRefusals := by
  intro s q rest ready
  refine ⟨fun b c command params h => ⟨exec_rebase_off ready command params h, fun on => ?_⟩, fun b params h =>
    ⟨fun command => exec_rebase_refused ready command params h,
      fun command => exec_getChannel_refused ready command params h⟩,
    fun _ _ _ _ _ => exec_setChannel_refused ready⟩
  have side := channelSide_forceSettling (P := (· = c)) s c rfl
  refine ⟨_, exec_rebase_forced ready command params h on, ?_⟩
  simp only [State.chan_answered, State.answered_counters, State.answered_mgmt, side.mgmt, true_and]
  exact ⟨State.sameRecords_answered q rest _ _ (s.sameRecords_forceSettling c), s.chan_endSettling c _ _,
    s.end_windows_same c _, fun d hd => ⟨side.others d hd, s.end_windows_other c _ hd⟩, side.power, side.time,
    side.inlet, (s.sameElsewhere_forceSettling c).groups, side.profiles, side.link, side.pending⟩

/-! ### A stored configuration, before its case applies (R12, R16) -/

/-- The tier that a channel of group `old` holds once it names `new`: its own, or that of the group it leaves (R12). -/
def State.tierAfter (s : State) (c : ChanNo) (old new : Option (Fin 8)) : Tier :=
  match old with
  | none => (s.chan c).window.tier
  | some g => if new = some g then (s.chan c).window.tier else s.groups[g].tier

theorem State.chan_joinGroup (s : State) (g : Fin 8) (c : ChanNo) : (s.joinGroup g).chan c = s.chan c := rfl

theorem State.chan_leaveGroup (s : State) (c : ChanNo) (g : Fin 8) :
    (s.leaveGroup c g).chan c = { s.chan c with window := { (s.chan c).window with tier := s.groups[g].tier } } :=
  s.chan_modWindow_same c fun w => { w with tier := s.groups[g].tier }

theorem State.chan_changeGroup (s : State) (c : ChanNo) (old new : Option (Fin 8)) :
    (s.changeGroup c old new).chan c =
      { s.chan c with window := { (s.chan c).window with tier := s.tierAfter c old new } } := by
  by_cases same : old = new
  · subst same
    rw [State.changeGroup_same]
    cases old <;> simp [State.tierAfter]
  cases old with
  | none =>
    cases new with
    | none => exact absurd rfl same
    | some k =>
      rw [State.changeGroup_join, State.chan_joinGroup]
      rfl
  | some g =>
    have tier : s.tierAfter c (some g) new = s.groups[g].tier := if_neg fun e => same e.symm
    rw [tier]
    cases new with
    | none => rw [State.changeGroup_leave, State.chan_leaveGroup]
    | some k => rw [State.changeGroup_move s c fun e => same (by rw [e]), State.chan_joinGroup, State.chan_leaveGroup]

/-- The part with the four fields stored and the Group Table following, before the case of R16 applies. -/
def State.stored (s : State) (c : ChanNo) (new : ChannelConfig) : State :=
  (s.modConfig c fun _ => new).changeGroup c (s.chan c).config.group new.group

theorem State.setConfig_eq (s : State) (c : ChanNo) (new : ChannelConfig) :
    s.setConfig c new = (s.stored c new).applyModeChange c (s.chan c).config new := rfl

section
variable (s : State) (c : ChanNo) (new : ChannelConfig)

theorem State.chan_stored :
    (s.stored c new).chan c =
      { config := new, run := (s.chan c).run
        window := { (s.chan c).window with tier := s.tierAfter c (s.chan c).config.group new.group } } := by
  unfold State.stored
  rw [State.chan_changeGroup, State.chan_modConfig_same]
  simp only [State.tierAfter, State.chan_modConfig_same, State.modConfig_groups]

theorem State.stored_sameRecords : (s.stored c new).sameRecords s := by
  obtain ⟨tier, groups, e⟩ := (s.modConfig c fun _ => new).changeGroup_cases c (s.chan c).config.group new.group
  unfold State.stored
  rw [e]
  exact s.sameRecords_refl

theorem State.stored_counters : (s.stored c new).counters = s.counters := by
  obtain ⟨tier, groups, e⟩ := (s.modConfig c fun _ => new).changeGroup_cases c (s.chan c).config.group new.group
  unfold State.stored
  rw [e]
  rfl

theorem State.stored_abandonCounts : (s.stored c new).abandonCounts c = s.abandonCounts c := by
  simp only [State.abandonCounts, State.chan_stored, State.stored_counters]

end

/-! ### The cases of R16 -/

section
variable (s : State) (c : ChanNo) {old new : ChannelConfig}

theorem State.applyModeChange_quiet (ho : old.mode = .off) (hn : new.mode = .off) :
    s.applyModeChange c old new = s := by rw [State.applyModeChange, if_pos ho, if_pos hn]

theorem State.applyModeChange_start (ho : old.mode = .off) (hn : new.mode ≠ .off) :
    s.applyModeChange c old new = s.enterSettling c .settle := by
  rw [State.applyModeChange, if_pos ho, if_neg hn]

theorem State.applyModeChange_stop (ho : old.mode ≠ .off) (hn : new.mode = .off) :
    s.applyModeChange c old new = ((s.abandon c).endEngagement c .stopped).enterOff c := by
  rw [State.applyModeChange, if_neg ho, if_pos hn]

theorem State.applyModeChange_polarity (ho : old.mode ≠ .off) (hn : new.mode ≠ .off)
    (hp : old.polarity ≠ new.polarity) :
    s.applyModeChange c old new = ((s.abandon c).endEngagement c .rebase).enterSettling c .settle := by
  rw [State.applyModeChange, if_neg ho, if_neg hn, if_pos hp]

theorem State.applyModeChange_plain (ho : old.mode ≠ .off) (hn : new.mode ≠ .off)
    (hp : old.polarity = new.polarity) : s.applyModeChange c old new = s := by
  rw [State.applyModeChange, if_neg ho, if_neg hn, if_neg fun h => h hp]

/-- Every other channel keeps its counts (R57, R61). -/
theorem State.applyModeChange_windows (old new : ChannelConfig) {d : ChanNo} (h : d ≠ c) :
    (s.applyModeChange c old new).counters.windows[d] = s.counters.windows[d] := by
  unfold State.applyModeChange
  split
  · split <;> rfl
  · split
    · exact s.end_windows_other c _ h
    · split
      · exact s.end_windows_other c _ h
      · rfl

end

/-- What storing `new` makes of channel `c`: its window part, its state part, its window counters, and the records
handed over, which are those that `u` has been handed. -/
def State.storesAs (s : State) (c : ChanNo) (new : ChannelConfig) (window : WindowPart) (run : RunPart) (u : State)
    (counts : WindowCounts) : Prop :=
  ((s.setConfig c new).chan c).window = window ∧ ((s.setConfig c new).chan c).run = run ∧
  (s.setConfig c new).sameRecords u ∧ (s.setConfig c new).counters.windows[c] = counts

section
variable {s : State} {c : ChanNo} {new : ChannelConfig}

/-- A quiet store and a plain change (R16, R88): only the tier can change. -/
theorem State.storesAs_kept (kept : s.setConfig c new = s.stored c new) :
    s.storesAs c new { (s.chan c).window with tier := s.tierAfter c (s.chan c).config.group new.group } (s.chan c).run s
      s.counters.windows[c] := by
  unfold State.storesAs
  rw [kept, State.chan_stored, State.stored_counters]
  exact ⟨rfl, rfl, s.stored_sameRecords c new, rfl⟩

/-- A start (R85). -/
theorem State.storesAs_started (ho : (s.chan c).config.mode = .off) (hn : new.mode ≠ .off) :
    s.storesAs c new
      { (s.chan c).window with
        tier := s.tierAfter c (s.chan c).config.group new.group, lastRate := 0, lastMean := none }
      { (s.chan c).run with state := .settling, engaged := false, confirm := 0, rejectRun := 0, baseline := none,
                            cause := .settle, maxActive := none, quiet := none } s s.counters.windows[c] := by
  unfold State.storesAs
  rw [State.setConfig_eq, State.applyModeChange_start _ c ho hn, State.chan_enterSettling, State.chan_stored,
    State.enterSettling_counters, State.stored_counters]
  exact ⟨rfl, rfl, State.sameRecords_enterSettling c (s.stored_sameRecords c new) _, rfl⟩

/-- The RELEASE of a channel that ends what it was doing, once its configuration is stored (R65). -/
theorem State.stored_end_sameRecords (x : ReleaseReason) :
    (((s.stored c new).abandon c).endEngagement c x).sameRecords
      (s.handAll c (if (s.chan c).run.engaged then [.release x none] else [])) := by
  have ended := State.sameRecords_end c (s.stored_sameRecords c new) x
  rw [State.chan_stored] at ended
  exact ended

/-- A stop (R86). -/
theorem State.storesAs_stopped (ho : (s.chan c).config.mode ≠ .off) (hn : new.mode = .off) :
    s.storesAs c new
      { openWin := none, tier := s.tierAfter c (s.chan c).config.group new.group, lastRate := 0, lastMean := none }
      { (s.chan c).run with state := .off, engaged := false, confirm := 0, rejectRun := 0, baseline := none,
                            maxActive := none, quiet := none, lastValue := none }
      (s.handAll c (if (s.chan c).run.engaged then [.release .stopped none] else [])) (s.abandonCounts c) := by
  unfold State.storesAs
  rw [State.setConfig_eq, State.applyModeChange_stop _ c ho hn, State.chan_endOff, State.chan_stored,
    State.enterOff_counters, State.end_windows_same, State.stored_abandonCounts]
  exact ⟨rfl, rfl, State.sameRecords_enterOff c (State.stored_end_sameRecords .stopped), rfl⟩

/-- A change of polarity (R87). -/
theorem State.storesAs_turned (ho : (s.chan c).config.mode ≠ .off) (hn : new.mode ≠ .off)
    (hp : (s.chan c).config.polarity ≠ new.polarity) :
    s.storesAs c new
      { openWin := none, tier := s.tierAfter c (s.chan c).config.group new.group, lastRate := 0, lastMean := none }
      { (s.chan c).run with state := .settling, engaged := false, confirm := 0, rejectRun := 0, baseline := none,
                            cause := .settle, maxActive := none, quiet := none }
      (s.handAll c (if (s.chan c).run.engaged then [.release .rebase none] else [])) (s.abandonCounts c) := by
  unfold State.storesAs
  rw [State.setConfig_eq, State.applyModeChange_polarity _ c ho hn hp, State.chan_endSettling, State.chan_stored,
    State.enterSettling_counters, State.end_windows_same, State.stored_abandonCounts]
  exact ⟨rfl, rfl, State.sameRecords_enterSettling c (State.stored_end_sameRecords .rebase) _, rfl⟩

theorem State.setConfig_windows {d : ChanNo} (h : d ≠ c) :
    (s.setConfig c new).counters.windows[d] = s.counters.windows[d] := by
  rw [State.setConfig_eq, State.applyModeChange_windows _ c _ _ h, State.stored_counters]

end

/-- Settles O43, by the cases of R16 on the part with the configuration stored. -/
theorem setChannelCases : Obligations.SetChannelCases := by
  refine ⟨channelRequestBytes_surj, fun s q rest c new ready command params => ?_⟩
  obtain ⟨power, time, inlet, profiles, link, mgmt, pending, config, others⟩ := setConfig_frame s c new
  refine ⟨_, exec_setChannel_stored ready command params, congrArg (·.answered q rest .ok []) mgmt,
    ⟨config, fun ho hn => ?_, ?_, ?_, ?_, fun ho hn hp => ?_⟩, rfl, fun d hd => State.setConfig_windows hd, others,
    power, time, inlet, profiles, link, pending⟩
  · exact State.storesAs_kept (State.applyModeChange_quiet _ c ho hn)
  · exact State.storesAs_started
  · exact State.storesAs_stopped
  · exact State.storesAs_turned
  · exact State.storesAs_kept (State.applyModeChange_plain _ c ho hn hp)

end Sys2Proof.Machine
end

section
/-! SUPPORT. The two route banks: the entry of a source, an entry placed, and what the inlet's operations make of the
tracking fields (R21, R22, R24, R30, R38). -/

namespace Sys2Proof.Machine

/-! ### A bank in the order of its sources (R21) -/

section
variable {bank : List Route} (ok : bankOk bank)
include ok

theorem bankOk.length_le : bank.length ≤ Config.routeCapacity := ok.1

theorem bankOk.fields : ∀ r ∈ bank, 1 ≤ r.lanes ∧ r.lanes ≤ 16 ∧ r.base.val + r.lanes ≤ 64 ∧ r.silence ≤ 65535 := ok.2.1

theorem bankOk.pairwise : bank.Pairwise fun a b => a.source.toNat < b.source.toNat ∧ a.overlaps b = false := ok.2.2

theorem bankOk.sublist {l : List Route} (h : l.Sublist bank) : bankOk l :=
  ⟨h.length_le.trans ok.length_le, fun r hr => ok.fields r (h.subset hr), ok.pairwise.sublist h⟩

theorem bankOk.sources_ascend : bank.Pairwise fun a b => a.source.toNat < b.source.toNat := ok.pairwise.imp fun h => h.1

end

theorem bankOk_nil : bankOk [] := ⟨by decide, by simp, List.Pairwise.nil⟩

/-- The entries of a bank with an entry placed in it: that entry, and those of other sources (R34). -/
theorem mem_insertRoute {r : Route} {bank : List Route}
    (ascends : bank.Pairwise fun a b => a.source.toNat < b.source.toNat) (x : Route) :
    x ∈ insertRoute r bank ↔ x = r ∨ x ∈ bank ∧ x.source ≠ r.source := by
  induction bank with
  | nil => simp [insertRoute]
  | cons y rest ih =>
    obtain ⟨first, ascends⟩ := List.pairwise_cons.mp ascends
    have above : ∀ {k : Nat}, k ≤ y.source.toNat → ∀ z ∈ rest, z.source.toNat ≠ k := fun hk z hz e => by
      have := first z hz
      omega
    unfold insertRoute
    split
    · rename_i below
      have other : ∀ z ∈ y :: rest, z.source ≠ r.source := by
        intro z hz e
        obtain rfl | hz := List.mem_cons.mp hz
        · exact absurd below (by rw [e]; exact lt_irrefl _)
        · exact above (Nat.le_of_lt below) z hz (congrArg BitVec.toNat e)
      rw [List.mem_cons]
      exact or_congr_right ⟨fun h => ⟨h, other x h⟩, And.left⟩
    · split
      · rename_i same
        have other : ∀ z ∈ rest, z.source ≠ r.source := fun z hz e => above le_rfl z hz (by rw [e, same])
        rw [List.mem_cons, List.mem_cons]
        refine or_congr_right ⟨fun h => ⟨.inr h, other x h⟩, fun h => ?_⟩
        obtain ⟨rfl | h, hs⟩ := h
        · exact absurd same.symm hs
        · exact h
      · rename_i differs
        rw [List.mem_cons, ih ascends, List.mem_cons]
        constructor
        · rintro (rfl | rfl | ⟨h, hs⟩)
          · exact .inr ⟨.inl rfl, fun e => differs e.symm⟩
          · exact .inl rfl
          · exact .inr ⟨.inr h, hs⟩
        · rintro (rfl | ⟨rfl | h, hs⟩)
          · exact .inr (.inl rfl)
          · exact .inl rfl
          · exact .inr (.inr ⟨h, hs⟩)

/-- A placed entry takes no more room than the bank and itself, and none where its source has an entry. -/
theorem length_insertRoute (r : Route) (bank : List Route) :
    (insertRoute r bank).length ≤ bank.length + 1 ∧
    (bank.Pairwise (fun a b => a.source.toNat < b.source.toNat) → (∃ x ∈ bank, x.source = r.source) →
      (insertRoute r bank).length = bank.length) := by
  induction bank with
  | nil => simp [insertRoute]
  | cons y rest ih =>
    unfold insertRoute
    split
    · rename_i below
      refine ⟨le_rfl, fun ascends found => ?_⟩
      obtain ⟨x, hx, e⟩ := found
      obtain rfl | hx := List.mem_cons.mp hx
      · exact absurd below (by rw [e]; exact lt_irrefl _)
      · have := (List.pairwise_cons.mp ascends).1 x hx
        rw [e] at this
        omega
    · split
      · simp
      · rename_i differs
        refine ⟨Nat.succ_le_succ ih.1, fun ascends found =>
          congrArg Nat.succ (ih.2 (List.pairwise_cons.mp ascends).2 ?_)⟩
        obtain ⟨x, hx, e⟩ := found
        obtain rfl | hx := List.mem_cons.mp hx
        · exact absurd e.symm differs
        · exact ⟨x, hx, e⟩

/-- An entry that shares no channel with those of other sources finds its place in the bank's order. -/
theorem pairwise_insertRoute {r : Route} {bank : List Route}
    (pairwise : bank.Pairwise fun a b => a.source.toNat < b.source.toNat ∧ a.overlaps b = false)
    (apart : ∀ x ∈ bank, x.source ≠ r.source → x.overlaps r = false) :
    (insertRoute r bank).Pairwise fun a b => a.source.toNat < b.source.toNat ∧ a.overlaps b = false := by
  have before : ∀ z ∈ bank, r.source.toNat < z.source.toNat →
      r.source.toNat < z.source.toNat ∧ r.overlaps z = false := fun z hz above =>
    ⟨above, overlaps_symm (apart z hz fun e => absurd above (by rw [e]; exact lt_irrefl _))⟩
  induction bank with
  | nil => simp [insertRoute]
  | cons y rest ih =>
    obtain ⟨first, later⟩ := List.pairwise_cons.mp pairwise
    unfold insertRoute
    split
    · rename_i below
      refine List.pairwise_cons.mpr ⟨fun z hz => before z hz ?_, pairwise⟩
      obtain rfl | hz := List.mem_cons.mp hz
      · exact below
      · exact below.trans (first z hz).1
    · split
      · rename_i same
        exact List.pairwise_cons.mpr
          ⟨fun z hz => before z (List.mem_cons_of_mem _ hz) (by rw [same]; exact (first z hz).1), later⟩
      · rename_i notBelow differs
        refine List.pairwise_cons.mpr ⟨fun z hz => ?_, ih later (fun x hx => apart x (List.mem_cons_of_mem _ hx))
          fun x hx => before x (List.mem_cons_of_mem _ hx)⟩
        obtain rfl | ⟨hz, -⟩ := (mem_insertRoute (later.imp fun h => h.1) z).mp hz
        · have : z.source.toNat ≠ y.source.toNat := fun e => differs (BitVec.eq_of_toNat_eq e)
          exact ⟨by omega, apart y List.mem_cons_self fun e => differs e.symm⟩
        · exact first z hz

/-- An entry that shares no channel with those of other sources may be placed wherever there is room (R21, R34). -/
theorem bankOk_insertRoute {r : Route} {bank : List Route} (ok : bankOk bank)
    (fields : 1 ≤ r.lanes ∧ r.lanes ≤ 16 ∧ r.base.val + r.lanes ≤ 64 ∧ r.silence ≤ 65535)
    (apart : ∀ x ∈ bank, x.source ≠ r.source → x.overlaps r = false)
    (room : bank.length < Config.routeCapacity ∨ ∃ x ∈ bank, x.source = r.source) : bankOk (insertRoute r bank) := by
  refine ⟨?_, fun x hx => ?_, pairwise_insertRoute ok.pairwise apart⟩
  · obtain room | found := room
    · have := (length_insertRoute r bank).1
      omega
    · rw [(length_insertRoute r bank).2 ok.sources_ascend found]
      exact ok.length_le
  · obtain rfl | ⟨hx, -⟩ := (mem_insertRoute ok.sources_ascend x).mp hx
    · exact fields
    · exact ok.fields x hx

end Sys2Proof.Machine
end

section
/-! SUPPORT. The active bank: the entry that a source is looked up to, and what frames, silence and swaps make of the
entries' tracking fields (R22–R24, R29–R31, R38). -/

namespace Sys2Proof.Machine

/-! ### The entry of a source (R23) -/

theorem Inlet.lookup_mem {i : Inlet} {source : Byte} {a : ActiveRoute} (h : i.lookup source = some a) : a ∈ i.active :=
  List.mem_of_find?_eq_some h

theorem Inlet.lookup_source {i : Inlet} {source : Byte} {a : ActiveRoute} (h : i.lookup source = some a) :
    a.route.source = source := by simpa using List.find?_some h

theorem Inlet.lookup_eq_none {i : Inlet} {source : Byte} (h : ∀ a ∈ i.active, a.route.source ≠ source) :
    i.lookup source = none := by simpa [Inlet.lookup] using h

/-- A bank holds one entry of each source (R21). -/
theorem entry_unique {bank : List ActiveRoute} (ok : bankOk (bank.map (·.route))) {a b : ActiveRoute} (ha : a ∈ bank)
    (hb : b ∈ bank) (same : b.route.source = a.route.source) : b = a := by
  by_contra differs
  have apart : bank.Pairwise fun a b => a.route.source ≠ b.route.source :=
    (List.pairwise_map.mp ok.sources_ascend).imp fun below e => absurd below (by rw [e]; exact lt_irrefl _)
  have : Std.Symm fun a b : ActiveRoute => a.route.source ≠ b.route.source := ⟨fun _ _ => Ne.symm⟩
  exact apart.forall hb ha differs same

/-! ### Tracking fields changed (R22) -/

/-- The entry with its tracking fields as `f` makes them, when it is the one of the source. -/
def ActiveRoute.retrack (source : Byte) (f : Tracking → Tracking) (a : ActiveRoute) : ActiveRoute :=
  if a.route.source = source then { a with track := f a.track } else a

theorem ActiveRoute.retrack_route (source : Byte) (f : Tracking → Tracking) (a : ActiveRoute) :
    (a.retrack source f).route = a.route := by
  unfold ActiveRoute.retrack
  split <;> rfl

theorem ActiveRoute.retrack_retrack (source : Byte) (f g : Tracking → Tracking) (a : ActiveRoute) :
    (a.retrack source f).retrack source g = a.retrack source fun k => g (f k) := by
  by_cases h : a.route.source = source <;> simp [ActiveRoute.retrack, h]

/-- The Inlet Receiver with the tracking fields of the active entry of the source as `f` makes them. -/
def Inlet.retrack (i : Inlet) (source : Byte) (f : Tracking → Tracking) : Inlet :=
  { i with active := i.active.map (ActiveRoute.retrack source f) }

theorem Inlet.retrack_retrack (i : Inlet) (source : Byte) (f g : Tracking → Tracking) :
    (i.retrack source f).retrack source g = i.retrack source fun k => g (f k) := by
  simp [Inlet.retrack, Function.comp_def, ActiveRoute.retrack_retrack]

theorem State.modTrack_inlet (s : State) (source : Byte) (f : Tracking → Tracking) :
    (s.modTrack source f).inlet = s.inlet.retrack source f := by
  have entries : (fun a : ActiveRoute => if a.route.source == source then { a with track := f a.track } else a) =
      ActiveRoute.retrack source f := by
    funext a
    by_cases h : a.route.source = source <;> simp [ActiveRoute.retrack, h]
  rw [Inlet.retrack, ← entries]
  rfl

theorem State.trackFrame_inlet (s : State) (r : Route) (sequence : Byte) :
    (s.trackFrame r sequence).inlet = s.inlet.retrack r.source fun k =>
      { k with synced := true, expected := sequence + 1
               timer := if r.silence = 0 then k.timer else some r.silence } := by
  rw [State.trackFrame, State.raise_inlet, State.modTrack_inlet]

/-- What a taken frame makes of the tracking fields of its entry `a` (R24, R29, R31). -/
def ActiveRoute.trackTaken (a : ActiveRoute) (sequence : Byte) (k : Tracking) : Tracking :=
  { synced := true, expected := sequence + 1
    timer := if a.route.silence = 0 then k.timer else some a.route.silence
    silent := if a.track.silent then false else k.silent }

/-- The tracking of a frame and the end of its route's silence, together (steps 1 to 3 of R28). -/
theorem State.resumeRoute_inlet (s : State) (a : ActiveRoute) (sequence : Byte) :
    ((s.trackFrame a.route sequence).resumeRoute a).inlet =
      s.inlet.retrack a.route.source (a.trackTaken sequence) := by
  unfold State.resumeRoute
  split
  · rename_i silent
    have tracked : a.trackTaken sequence = fun k =>
        { synced := true, expected := sequence + 1
          timer := if a.route.silence = 0 then k.timer else some a.route.silence, silent := false } := by
      funext k
      simp [ActiveRoute.trackTaken, silent]
    rw [(channelSide_resumes _ _).inlet, State.modTrack_inlet, State.trackFrame_inlet, Inlet.retrack_retrack, tracked]
  · rename_i loud
    have tracked : a.trackTaken sequence = fun k =>
        { k with synced := true, expected := sequence + 1
                 timer := if a.route.silence = 0 then k.timer else some a.route.silence } := by
      funext k
      simp [ActiveRoute.trackTaken, loud]
    rw [State.trackFrame_inlet, tracked]

theorem State.takeGap_inlet (s : State) (r : Route) (cls : FrameClass) : (s.takeGap r cls).inlet = s.inlet := by
  unfold State.takeGap
  split
  · exact (channelSide_abandonRange _ r).inlet.trans (s.hand_inlet _ _)
  all_goals rfl

theorem State.deliverLanes_inlet (s : State) (r : Route) (samples : List Sample) :
    (s.deliverLanes r samples).inlet = s.inlet := by
  have lanes := (channelSide_lanes s r samples).inlet
  unfold State.deliverLanes
  dsimp only
  split <;> exact lanes

theorem State.offerMirror_inlet (s : State) (m : SampleFrame) : (s.offerMirror m).inlet = s.inlet := by
  unfold State.offerMirror
  split <;> rfl

/-- Of the Inlet Receiver, a taken frame changes the tracking fields of its own entry (R24, R29, R31). -/
theorem State.takeFrame_inlet (s : State) (a : ActiveRoute) (cls : FrameClass) (m : SampleFrame) :
    (s.takeFrame a cls m).inlet =
      s.inlet.retrack a.route.source (a.trackTaken m.sequence) := by
  have delivered := (State.deliverLanes_inlet _ a.route m.samples).trans
    ((State.takeGap_inlet _ a.route cls).trans (s.resumeRoute_inlet a m.sequence))
  unfold State.takeFrame
  dsimp only
  split
  · exact (State.offerMirror_inlet _ m).trans delivered
  · exact delivered

/-- Of the Inlet Receiver, a declared silence changes the tracking fields of its own entry (R30). -/
theorem State.declareSilent_inlet (s : State) (a : ActiveRoute) :
    (s.declareSilent a).inlet =
      s.inlet.retrack a.route.source fun k => { k with silent := true, timer := none } :=
  (channelSide_silences _ _).inlet.trans (State.modTrack_inlet _ _ _)

end Sys2Proof.Machine
end

section
/-! SUPPORT. Every execution row has an owner that refuses or carries out (R153, R161–R163): what it carries out leaves
the Management Unit to the completion, and, the route requests apart, the Inlet Receiver alone. -/

namespace Sys2Proof.Machine

/-! ### Owners that refuse or carry out -/

/-- Whatever the owner is asked, it refuses, or it carries the request out on a state that `R` relates to the one it
found. -/
def ownerAnswers (R : State → State → Prop) (owner : State → List Byte → Answer) : Prop :=
  ∀ (s : State) (params : List Byte),
    (∃ x, owner s params = s.refuse x) ∨ ∃ u data, R s u ∧ owner s params = u.accept data

theorem ownerAnswers.mono {R Q : State → State → Prop} {owner : State → List Byte → Answer} (h : ownerAnswers R owner)
    (hRQ : ∀ s u, R s u → Q s u) : ownerAnswers Q owner := by
  intro s params
  obtain refused | ⟨u, data, hR, answer⟩ := h s params
  · exact .inl refused
  · exact .inr ⟨u, data, hRQ s u hR, answer⟩

/-- Management Unit and Inlet Receiver of `u` are those of `s`. -/
structure SameReceivers (s u : State) : Prop where
  mgmt : u.mgmt = s.mgmt
  inlet : u.inlet = s.inlet

theorem SameReceivers.refl (s : State) : SameReceivers s s := ⟨rfl, rfl⟩

theorem ChannelSide.sameReceivers {P : ChanNo → Prop} {s u : State} (h : ChannelSide P s u) : SameReceivers s u :=
  ⟨h.mgmt, h.inlet⟩

theorem SameReceivers.trans {s t u : State} (h : SameReceivers s t) (k : SameReceivers t u) : SameReceivers s u :=
  ⟨k.mgmt.trans h.mgmt, k.inlet.trans h.inlet⟩

theorem EventSide.sameReceivers {s u : State} (h : EventSide s u) : SameReceivers s u := ⟨h.mgmt, h.inlet⟩

theorem sameReceivers_modLink (s : State) (f : Link → Link) : SameReceivers s (s.modLink f) := ⟨rfl, rfl⟩

section
variable {R : State → State → Prop} {s : State}

theorem refusal_answers (x : Status) :
    (∃ y, s.refuse x = s.refuse y) ∨ ∃ u data, R s u ∧ s.refuse x = u.accept data := .inl ⟨x, rfl⟩

theorem acceptance_answers {u : State} {data : List Byte} (h : R s u) :
    (∃ y, u.accept data = s.refuse y) ∨ ∃ v d, R s v ∧ u.accept data = v.accept d := .inr ⟨u, data, h, rfl⟩

end

theorem ownDescribe_answers : ownerAnswers SameReceivers ownDescribe := by
  intro s params
  unfold ownDescribe
  split
  · exact acceptance_answers (.refl s)
  · exact refusal_answers _

theorem ownSetProfile_answers : ownerAnswers SameReceivers ownSetProfile := by
  intro s params
  unfold ownSetProfile
  split
  · split
    · exact acceptance_answers ⟨rfl, rfl⟩
    · exact refusal_answers _
  · exact refusal_answers _

theorem ownGetProfile_answers : ownerAnswers SameReceivers ownGetProfile := by
  intro s params
  unfold ownGetProfile
  split
  · split
    · exact acceptance_answers (.refl s)
    · exact refusal_answers _
  · exact refusal_answers _

theorem ownSetChannel_answers : ownerAnswers SameReceivers ownSetChannel := by
  intro s params
  unfold ownSetChannel
  split
  · split
    · rename_i c new _
      obtain ⟨-, -, inlet, -, -, mgmt, -⟩ := setConfig_frame s c new
      exact acceptance_answers ⟨mgmt, inlet⟩
    · exact refusal_answers _
  · exact refusal_answers _

theorem ownGetChannel_answers : ownerAnswers SameReceivers ownGetChannel := by
  intro s params
  unfold ownGetChannel
  split
  · split
    · exact acceptance_answers (.refl s)
    · exact refusal_answers _
  · exact refusal_answers _

theorem ownRebase_answers : ownerAnswers SameReceivers ownRebase := by
  intro s params
  unfold ownRebase
  split
  · split
    · rename_i c _
      split
      · exact acceptance_answers (channelSide_forceSettling (P := (· = c)) s c rfl).sameReceivers
      · exact refusal_answers _
    · exact refusal_answers _
  · exact refusal_answers _

theorem ownGetRoutes_answers : ownerAnswers SameReceivers ownGetRoutes := by
  intro s params
  unfold ownGetRoutes
  split
  · split
    · exact acceptance_answers (.refl s)
    · exact refusal_answers _
  · exact refusal_answers _

theorem ownSetAlert_answers : ownerAnswers SameReceivers ownSetAlert := by
  intro s params
  unfold ownSetAlert
  split
  · split
    · exact acceptance_answers ⟨rfl, rfl⟩
    · exact refusal_answers _
  · exact refusal_answers _

theorem ownQuietAlert_answers : ownerAnswers SameReceivers ownQuietAlert := by
  intro s params
  unfold ownQuietAlert
  split
  · exact acceptance_answers ⟨rfl, rfl⟩
  · exact refusal_answers _

theorem ownReadCounters_answers : ownerAnswers SameReceivers ownReadCounters := by
  intro s params
  unfold ownReadCounters
  split
  · split
    · exact acceptance_answers (.refl s)
    · exact refusal_answers _
  · exact refusal_answers _

theorem ownClearCounters_answers : ownerAnswers SameReceivers ownClearCounters := by
  intro s params
  unfold ownClearCounters
  split
  · split
    · exact acceptance_answers ⟨rfl, rfl⟩
    · exact refusal_answers _
  · exact refusal_answers _

theorem sameReceivers_applyResync (s : State) : SameReceivers s s.applyResync := by
  have released := (sameReceivers_modLink s fun l => { l with replay := [] }).trans
    (eventSide_resyncEvents _ s.link.replay).sameReceivers
  unfold State.applyResync
  dsimp only
  exact (released.trans (eventSide_raiseBy _ _ _).sameReceivers).trans (sameReceivers_modLink _ _)

theorem ownResync_answers : ownerAnswers SameReceivers ownResync := by
  intro s params
  unfold ownResync
  split
  · exact acceptance_answers (sameReceivers_applyResync s)
  · exact refusal_answers _

theorem ownUnknown_answers : ownerAnswers SameReceivers ownUnknown := fun _ _ => refusal_answers _

theorem ownRestart_answers : ownerAnswers SameReceivers ownRestart := fun _ _ => refusal_answers _

/-! ### The route requests -/

/-- What an owner's answer may do to the Inlet Receiver when it edits the shadow bank (R34–R36). -/
def EditsShadow (edit : Inlet → List Route → Prop) (s u : State) : Prop :=
  ∃ bank, edit s.inlet bank ∧ u = { s with inlet := { s.inlet with shadow := bank } }

/-- SET_ROUTE carried out: the entry passed the checks of R34 and is placed. -/
def placesRoute (i : Inlet) (bank : List Route) : Prop :=
  ∃ source base lanes mirror hi lo r, parseRoute source base lanes mirror hi lo = some r ∧
    (∀ x ∈ i.shadow, x.source ≠ r.source → x.overlaps r = false) ∧
    (i.shadow.length < Config.routeCapacity ∨ ∃ x ∈ i.shadow, x.source = r.source) ∧ bank = insertRoute r i.shadow

theorem ownSetRoute_answers : ownerAnswers (EditsShadow placesRoute) ownSetRoute := by
  intro s params
  unfold ownSetRoute
  split
  · rename_i source base lanes mirror hi lo
    split
    · exact refusal_answers _
    · rename_i r parsed
      split
      · exact refusal_answers _
      · rename_i apart
        split
        · exact refusal_answers _
        · rename_i room
          refine acceptance_answers ⟨_, ⟨source, base, lanes, mirror, hi, lo, r, parsed, ?_, ?_, rfl⟩, rfl⟩
          · simpa using apart
          · obtain short | full := Nat.lt_or_ge s.inlet.shadow.length Config.routeCapacity
            · exact .inl short
            · exact .inr (by simpa [full] using room)
  · exact refusal_answers _

theorem ownDropRoute_answers : ownerAnswers (EditsShadow fun i bank => bank.Sublist i.shadow) ownDropRoute := by
  intro s params
  unfold ownDropRoute
  split
  · split
    · exact acceptance_answers ⟨_, List.filter_sublist, rfl⟩
    · exact refusal_answers _
  · exact refusal_answers _

theorem ownCopyRoutes_answers :
    ownerAnswers (EditsShadow fun i bank => bank = i.active.map (·.route)) ownCopyRoutes := by
  intro s params
  unfold ownCopyRoutes
  split
  · exact acceptance_answers ⟨_, rfl, rfl⟩
  · exact refusal_answers _

/-! ### The rows -/

/-- The rows that execute a request at its owner: all of them but SWAP_ROUTES, which may wait. -/
def ownedRow (i : Instr) : Prop :=
  ((executionRow i).isSome ∨ i = .unknownCommand ∨ i = .restartWithParameters) ∧ i ≠ .swapRoutes

/-- The rows among them that edit the shadow bank. -/
def editsRoutes : Instr → Bool
  | .setRoute | .dropRoute | .copyRoutes => true
  | _ => false

/-- The row executes the head request, when its command passes `is`, at an owner that keeps `R`. -/
def rowOwnedBy (R : State → State → Prop) (i : Instr) : Prop :=
  ∃ is owner, ownerAnswers R owner ∧ ∀ s, exec i s = .next (s.whileOn (·.execute is owner))

theorem rowOwnedBy.mono {R Q : State → State → Prop} {i : Instr} (h : rowOwnedBy R i) (hRQ : ∀ s u, R s u → Q s u) :
    rowOwnedBy Q i := by
  obtain ⟨is, owner, answers, row⟩ := h
  exact ⟨is, owner, answers.mono hRQ, row⟩

/-- Every row that edits no route has an owner that leaves the Inlet Receiver alone. -/
theorem rowOwnedBy_sameReceivers {i : Instr} (h : ownedRow i) (spares : editsRoutes i = false) :
    rowOwnedBy SameReceivers i := by
  obtain ⟨named, notSwap⟩ := h
  cases i with
  | describe => exact ⟨_, _, ownDescribe_answers, fun _ => rfl⟩
  | setProfile => exact ⟨_, _, ownSetProfile_answers, fun _ => rfl⟩
  | getProfile => exact ⟨_, _, ownGetProfile_answers, fun _ => rfl⟩
  | setChannel => exact ⟨_, _, ownSetChannel_answers, fun _ => rfl⟩
  | getChannel => exact ⟨_, _, ownGetChannel_answers, fun _ => rfl⟩
  | rebase => exact ⟨_, _, ownRebase_answers, fun _ => rfl⟩
  | getRoutes => exact ⟨_, _, ownGetRoutes_answers, fun _ => rfl⟩
  | setAlert => exact ⟨_, _, ownSetAlert_answers, fun _ => rfl⟩
  | quietAlert => exact ⟨_, _, ownQuietAlert_answers, fun _ => rfl⟩
  | readCounters => exact ⟨_, _, ownReadCounters_answers, fun _ => rfl⟩
  | clearCounters => exact ⟨_, _, ownClearCounters_answers, fun _ => rfl⟩
  | resync => exact ⟨_, _, ownResync_answers, fun _ => rfl⟩
  | unknownCommand => exact ⟨_, _, ownUnknown_answers, fun _ => rfl⟩
  | restartWithParameters => exact ⟨_, _, ownRestart_answers, fun _ => rfl⟩
  | setRoute | dropRoute | copyRoutes => cases spares
  | swapRoutes => exact absurd rfl notSwap
  | _ => simp [executionRow] at named

theorem rowOwnedBy_setRoute : rowOwnedBy (EditsShadow placesRoute) .setRoute :=
  ⟨_, _, ownSetRoute_answers, fun _ => rfl⟩

theorem rowOwnedBy_dropRoute : rowOwnedBy (EditsShadow fun i bank => bank.Sublist i.shadow) .dropRoute :=
  ⟨_, _, ownDropRoute_answers, fun _ => rfl⟩

theorem rowOwnedBy_copyRoutes : rowOwnedBy (EditsShadow fun i bank => bank = i.active.map (·.route)) .copyRoutes :=
  ⟨_, _, ownCopyRoutes_answers, fun _ => rfl⟩

theorem EditsShadow.mgmt {edit : Inlet → List Route → Prop} {s u : State} (h : EditsShadow edit s u) :
    u.mgmt = s.mgmt := by
  obtain ⟨bank, -, rfl⟩ := h
  rfl

/-- Every row leaves the Management Unit to the completion. -/
theorem rowOwnedBy_mgmt {i : Instr} (h : ownedRow i) : rowOwnedBy (fun s u => u.mgmt = s.mgmt) i := by
  by_cases spares : editsRoutes i = false
  · exact (rowOwnedBy_sameReceivers h spares).mono fun _ _ same => same.mgmt
  · cases i with
    | setRoute => exact rowOwnedBy_setRoute.mono fun _ _ => EditsShadow.mgmt
    | dropRoute => exact rowOwnedBy_dropRoute.mono fun _ _ => EditsShadow.mgmt
    | copyRoutes => exact rowOwnedBy_copyRoutes.mono fun _ _ => EditsShadow.mgmt
    | _ => exact absurd rfl spares

end Sys2Proof.Machine
end

section
/-! Every step keeps the conditions of both route banks and of the active entries' tracking (R21, R22). -/

namespace Sys2Proof.Machine

/-! ### The conditions, of an Inlet Receiver -/

/-- The conditions of R21 and R22, of which the Inlet Receiver is all that matters. -/
def Inlet.banksOk (i : Inlet) : Prop :=
  bankOk (i.active.map (·.route)) ∧ bankOk i.shadow ∧ ∀ a ∈ i.active, a.trackingOk

theorem State.routesOk_iff (s : State) : s.routesOk ↔ s.inlet.banksOk := Iff.rfl

section
variable {i : Inlet} (ok : i.banksOk)
include ok

theorem Inlet.banksOk.active : bankOk (i.active.map (·.route)) := ok.1

theorem Inlet.banksOk.shadow : bankOk i.shadow := ok.2.1

theorem Inlet.banksOk.tracking : ∀ a ∈ i.active, a.trackingOk := ok.2.2

/-- Reception and the waiting swap are no part of the banks. -/
theorem Inlet.banksOk_of_same {j : Inlet} (active : j.active = i.active) (shadow : j.shadow = i.shadow) :
    j.banksOk := by
  unfold Inlet.banksOk
  rw [active, shadow]
  exact ok

theorem banksOk_setShadow {bank : List Route} (h : bankOk bank) : ({ i with shadow := bank } : Inlet).banksOk :=
  ⟨ok.active, h, ok.tracking⟩

/-- Active entries that keep their routes keep the bank (R21). -/
theorem banksOk_mapActive {f : ActiveRoute → ActiveRoute} (route : ∀ a, (f a).route = a.route)
    (tracking : ∀ a ∈ i.active, (f a).trackingOk) : ({ i with active := i.active.map f } : Inlet).banksOk := by
  refine ⟨?_, ok.shadow, fun b hb => ?_⟩
  · simpa [Function.comp_def, route] using ok.active
  · obtain ⟨a, ha, rfl⟩ := List.mem_map.mp hb
    exact tracking a ha

theorem banksOk_retrack {source : Byte} {f : Tracking → Tracking}
    (tracking : ∀ a ∈ i.active, a.route.source = source → ActiveRoute.trackingOk { a with track := f a.track }) :
    (i.retrack source f).banksOk := by
  refine banksOk_mapActive ok (ActiveRoute.retrack_route source f) fun a ha => ?_
  unfold ActiveRoute.retrack
  split
  · exact tracking a ha (by assumption)
  · exact ok.tracking a ha

end

/-! ### Tracking fields (R22, R29, R38) -/

theorem Tracking.begin_ok (r : Route) : ActiveRoute.trackingOk { route := r, track := .begin } := by
  refine ⟨?_, ?_, ?_⟩ <;> simp [Tracking.begin]

section
variable {a : ActiveRoute} (ok : a.trackingOk)
include ok

theorem ActiveRoute.trackingOk.timer : ∀ t ∈ a.track.timer, a.route.silence ≠ 0 ∧ t ≤ a.route.silence := ok.1

theorem ActiveRoute.trackingOk.silent : a.track.silent = true → a.track.timer = none := ok.2.1

theorem ActiveRoute.trackingOk.synced : a.track.timer.isSome → a.track.synced = true := ok.2.2

theorem trackingOk_tick : a.tick.trackingOk := by
  refine ⟨?_, fun silent => ?_, fun running => ok.synced (by simpa [ActiveRoute.tick, tickTimer] using running)⟩
  · simp only [ActiveRoute.tick, tickTimer, Option.mem_def, Option.map_eq_some_iff]
    rintro t ⟨n, hn, rfl⟩
    obtain ⟨watched, le⟩ := ok.timer n hn
    exact ⟨watched, by omega⟩
  · show tickTimer a.track.timer = none
    rw [ok.silent silent]
    rfl

/-- A taken frame ends the silence of its route, and starts the timer of a watched one (R24, R29, R31). -/
theorem trackingOk_taken (sequence : Byte) :
    ActiveRoute.trackingOk { a with track := a.trackTaken sequence a.track } := by
  refine ⟨fun t ht => ?_, fun silent => ?_, fun _ => rfl⟩
  · simp only [ActiveRoute.trackTaken] at ht ⊢
    split at ht
    · exact ok.timer t ht
    · rename_i watched
      obtain rfl := Option.some.inj ht
      exact ⟨watched, le_rfl⟩
  · cases h : a.track.silent <;> simp [ActiveRoute.trackTaken, h] at silent

/-- The entry of the same source in the other bank inherits fields that fit its own silence limit (R38). -/
theorem trackingOk_inherit (r : Route) :
    ActiveRoute.trackingOk { route := r, track := inheritTracking (some a) r } := by
  refine ⟨fun t ht => ?_, fun silent => ?_, fun running => ok.synced ?_⟩
  · simp only [inheritTracking] at ht ⊢
    split at ht
    · cases ht
    · rename_i watched
      obtain ⟨n, -, rfl⟩ := Option.map_eq_some_iff.mp ht
      exact ⟨watched, Nat.min_le_right _ _⟩
  · simp [inheritTracking, ok.silent silent]
  · simp only [inheritTracking] at running
    split at running
    · cases running
    · simpa using running

end

/-! ### The operations of the Inlet Receiver -/

section
variable {i : Inlet} (ok : i.banksOk)
include ok

theorem banksOk_taken {source : Byte} {a : ActiveRoute} (found : i.lookup source = some a) (sequence : Byte) :
    (i.retrack a.route.source (a.trackTaken sequence)).banksOk := by
  refine banksOk_retrack ok fun b hb same => ?_
  obtain rfl := entry_unique ok.active (Inlet.lookup_mem found) hb same
  exact trackingOk_taken (ok.tracking b hb) sequence

theorem banksOk_silenced (source : Byte) :
    (i.retrack source fun k => { k with silent := true, timer := none }).banksOk :=
  banksOk_retrack ok fun _ _ _ => ⟨by simp, by simp, by simp⟩

theorem banksOk_exchange : i.exchange.banksOk := by
  refine ⟨by simpa using ok.shadow, ok.active, fun b hb => ?_⟩
  obtain ⟨r, -, rfl⟩ := List.mem_map.mp hb
  cases found : i.lookup r.source with
  | none => exact Tracking.begin_ok r
  | some a => exact trackingOk_inherit (ok.tracking a (Inlet.lookup_mem found)) r

theorem banksOk_endReception : i.endReception.banksOk := Inlet.banksOk_of_same ok rfl rfl

theorem banksOk_placed {bank : List Route} (placed : placesRoute i bank) : bankOk bank := by
  obtain ⟨source, base, lanes, mirror, hi, lo, r, parsed, apart, room, rfl⟩ := placed
  refine bankOk_insertRoute ok.shadow ?_ apart room
  unfold parseRoute at parsed
  split at parsed
  · split at parsed
    · rename_i inside
      obtain ⟨least, most, within⟩ := inside
      cases parsed
      exact ⟨least, most, within, by have := (word16 hi lo).isLt; simp only; omega⟩
    · cases parsed
  · cases parsed

end

/-! ### The commands -/

section
variable {s t : State}

theorem routesOk_of_inlet (ok : s.routesOk) (same : t.inlet = s.inlet) : t.routesOk := by
  rw [State.routesOk_iff, same]
  exact ok

theorem routesOk_takeDueSwap (ok : s.routesOk) : s.takeDueSwap.routesOk := by
  unfold State.takeDueSwap
  split
  · rw [State.routesOk_iff, State.complete_inlet, State.takeSwap_inlet]
    exact banksOk_exchange ok
  · exact ok

theorem routesOk_handleInlet (ok : s.routesOk) (f : RawFrame) : (s.handleInlet f).routesOk := by
  unfold State.handleInlet
  split
  · exact ok
  · unfold State.routeFrame
    split
    · exact ok
    · rename_i a found
      split
      · exact ok
      · rw [State.routesOk_iff, State.takeFrame_inlet]
        exact banksOk_taken ok found _

theorem routesOk_beginSwap (ok : s.routesOk) (params : List Byte) : (s.beginSwap params).routesOk := by
  unfold State.beginSwap
  split
  · exact routesOk_of_inlet ok (s.complete_inlet _ _)
  · split
    · rw [State.routesOk_iff, State.complete_inlet, State.takeSwap_inlet]
      exact banksOk_exchange ok
    · exact Inlet.banksOk_of_same ok rfl rfl

theorem routesOk_restart (ok : s.routesOk) (tag : Byte) : (s.restart tag).routesOk :=
  banksOk_mapActive ok (fun _ => rfl) fun a _ => Tracking.begin_ok a.route

theorem routesOk_takeRequest (ok : s.routesOk) (q : Request) : (s.takeRequest q).routesOk := by
  unfold State.takeRequest
  dsimp only
  split
  · exact routesOk_restart (routesOk_takeDueSwap ok) _
  · exact routesOk_of_inlet ok (s.answerAtArrival_inlet _ _)
  · exact routesOk_of_inlet ok (s.answerAtArrival_inlet _ _)
  · exact routesOk_of_inlet ok (State.answerAtArrival_inlet _ _ _)
  · exact ok

theorem routesOk_tick (ok : s.routesOk) : s.tick.routesOk :=
  banksOk_mapActive (i := { s.inlet with reception := s.inlet.reception.tick }) ok (fun _ => rfl) fun a ha =>
    trackingOk_tick (Inlet.banksOk.tracking ok a ha)

/-- What an execution row's owner carries out keeps, the row keeps. -/
theorem routesOk_ownedRow {R : State → State → Prop} {i : Instr} (row : rowOwnedBy R i) (ok : s.routesOk)
    (keeps : ∀ u, R s u → u.routesOk) (h : exec i s = .next t) : t.routesOk := by
  obtain ⟨is, owner, answers, row⟩ := row
  cases (row s).symm.trans h
  refine State.whileOn_keeps ok (State.execute_keeps ok fun q _ _ => ?_)
  rw [State.routesOk_iff, State.complete_inlet]
  obtain ⟨x, refused⟩ | ⟨u, data, hR, carried⟩ := answers s q.params
  · rw [refused]
    exact ok
  · rw [carried]
    exact keeps u hR

theorem routesOk_editsShadow {edit : Inlet → List Route → Prop} {u : State} (ok : s.routesOk)
    (keeps : ∀ bank, edit s.inlet bank → bankOk bank) (h : EditsShadow edit s u) : u.routesOk := by
  obtain ⟨bank, edited, rfl⟩ := h
  exact banksOk_setShadow ok (keeps bank edited)

end

/-! ### The commands that leave the Inlet Receiver alone -/

theorem takeAck_inlet (s : State) (ack : BitVec 6) (grant : Nat) (resend : Bool) :
    (s.takeAck ack grant resend).inlet = s.inlet := by
  have acked : (s.applyAck ack).inlet = s.inlet := (eventSide_applyAck s ack).inlet
  unfold State.takeAck
  split
  · rfl
  · unfold State.ackInUp
    dsimp only
    have progressed : (if ackedCount s.link.replay ack = 0 then s.applyAck ack
        else (s.applyAck ack).modLink Link.progress).inlet = s.inlet := by
      split <;> exact acked
    generalize (if ackedCount s.link.replay ack = 0 then s.applyAck ack
      else (s.applyAck ack).modLink Link.progress) = u at progressed ⊢
    split <;> exact progressed
  · exact acked

/-- The rows whose event lies outside the Inlet Receiver and the Management Unit's owners: timers of channels, link and
alert, the inbound lane's reception, and the frames of the outbound lane. -/
def sparesInlet : Instr → Bool
  | .quietTimerExpiry _ | .maxActiveExpiry _ | .ackFrame _ | .inboundDiscard _ | .inboundTruncation | .ackTimerExpiry
  | .announceTimerExpiry | .holdTimerExpiry | .transmissionComplete | .responseFrameSend | .announceFrameSend
  | .retransmittedFrame | .newEventFrame | .mirrorFrameSend | .inboundSyncPair => true
  | _ => false

theorem exec_inlet_of_spares {s t : State} {i : Instr} (spares : sparesInlet i = true) (h : exec i s = .next t) :
    t.inlet = s.inlet := by
  have on : ∀ {f : State → State}, (f s).inlet = s.inlet → (s.whileOn f).inlet = s.inlet :=
    State.whileOn_keeps (P := fun u => u.inlet = s.inlet) rfl
  cases i with
  | maxActiveExpiry c =>
    cases h
    refine on ?_
    split
    · exact (channelSide_stuckExpiry (P := (· = c)) s c rfl).inlet
    · rfl
  | ackFrame f =>
    cases h
    refine on ?_
    split
    · exact takeAck_inlet _ _ _ _
    all_goals rfl
  | ackTimerExpiry =>
    cases h
    refine on ?_
    split
    · unfold State.ackExpiry
      split <;> rfl
    · rfl
  | transmissionComplete =>
    cases h
    refine on ?_
    split
    · unfold State.completeTransmission
      dsimp only
      split <;> rfl
    · rfl
  | inboundSyncPair =>
    cases h
    exact on rfl
  | quietTimerExpiry _ | inboundDiscard _ | inboundTruncation | announceTimerExpiry | holdTimerExpiry
  | responseFrameSend | announceFrameSend | retransmittedFrame | newEventFrame | mirrorFrameSend =>
    cases h
    refine on ?_
    split <;> rfl
  | _ => cases spares

/-! ### Every command -/

theorem routesOk_heldIn (cause : PowerCause) : (State.heldIn cause).inlet.banksOk :=
  ⟨bankOk_nil, bankOk_nil, by simp [State.heldIn]⟩

theorem routesOk_exec (i : Instr) (s t : State) (ok : s.routesOk) (h : exec i s = .next t) : t.routesOk := by
  by_cases spares : sparesInlet i = true
  · exact routesOk_of_inlet ok (exec_inlet_of_spares spares h)
  by_cases owned : ownedRow i ∧ editsRoutes i = false
  · exact routesOk_ownedRow (rowOwnedBy_sameReceivers owned.1 owned.2) ok
      (fun _ same => routesOk_of_inlet ok same.inlet) h
  cases i with
  | powerReset cause =>
    cases h
    exact routesOk_heldIn cause
  | resetNRelease =>
    cases power : s.power with
    | held cause =>
      cases (exec_release_of_held power).symm.trans h
      exact routesOk_heldIn cause
    | running =>
      cases (exec_release_of_running power).symm.trans h
      exact ok
  | sampleFrame f =>
    cases h
    exact State.whileOn_keeps ok (banksOk_endReception (routesOk_handleInlet (routesOk_takeDueSwap ok) f))
  | inletTruncation =>
    cases h
    refine State.whileOn_keeps ok ?_
    split
    · exact banksOk_endReception ok
    · exact ok
  | inletSyncPair =>
    cases h
    exact State.whileOn_keeps ok (Inlet.banksOk_of_same ok rfl rfl)
  | silenceTimerExpiry source =>
    cases h
    refine State.whileOn_keeps ok ?_
    split
    · split
      · rw [State.routesOk_iff, State.declareSilent_inlet]
        exact banksOk_silenced ok _
      · exact ok
    · exact ok
  | requestFrame f =>
    cases h
    refine State.whileOn_keeps ok ?_
    split
    · exact routesOk_takeRequest (s := s.endInbound) ok _
    all_goals exact ok
  | setRoute =>
    exact routesOk_ownedRow rowOwnedBy_setRoute ok
      (fun _ => routesOk_editsShadow ok fun _ => banksOk_placed ok) h
  | dropRoute =>
    exact routesOk_ownedRow rowOwnedBy_dropRoute ok
      (fun _ => routesOk_editsShadow ok fun _ => (Inlet.banksOk.shadow ok).sublist) h
  | copyRoutes =>
    exact routesOk_ownedRow rowOwnedBy_copyRoutes ok
      (fun _ => routesOk_editsShadow ok fun _ copied => copied ▸ Inlet.banksOk.active ok) h
  | swapRoutes =>
    cases h
    refine State.whileOn_keeps ok ?_
    split
    · split
      · exact routesOk_beginSwap ok _
      · exact ok
    · exact ok
  | swapTaken =>
    cases h
    exact State.whileOn_keeps ok (routesOk_takeDueSwap ok)
  | timeBaseTick =>
    cases h
    exact State.whileOn_keeps ok (routesOk_tick ok)
  | unknownCommand => exact absurd ⟨⟨.inr (.inl rfl), nofun⟩, rfl⟩ owned
  | restartWithParameters => exact absurd ⟨⟨.inr (.inr rfl), nofun⟩, rfl⟩ owned
  | describe | setProfile | getProfile | setChannel | getChannel | rebase | getRoutes | setAlert | quietAlert
  | readCounters | clearCounters | resync => exact absurd ⟨⟨.inl rfl, nofun⟩, rfl⟩ owned
  | _ => exact absurd rfl spares

/-- Settles O55: the conditions are the Inlet Receiver's own, and each of its operations keeps them. -/
theorem stepKeepsRoutesOk : Obligations.StepKeepsRoutesOk := fun _ _ =>
  step_keeps (fun _ _ ok => ok) routesOk_exec

end Sys2Proof.Machine
end

section
/-! A held part, the ticks of a running one, and receptions that begin and end without a frame (R19, R29, R41, R146,
R150, R169). -/

namespace Sys2Proof.Machine

/-! ### A held part (R41, R150, R169) -/

/-- Settles O3: every meaning but those of the power reset and the release is an effect of a running part. -/
theorem heldPartTakesNoEvent : Obligations.HeldPartTakesNoEvent := by
  intro s i cause held notReset notRelease
  have still : ∀ f : State → State, Host.Outcome.next (s.whileOn f) = (.next s : Host.Outcome State Fault Refusal) :=
    fun f => congrArg _ (State.whileOn_held held f)
  cases i with
  | powerReset k => exact absurd rfl (notReset k)
  | resetNRelease => exact absurd rfl notRelease
  | _ => exact still _

/-! ### Ticks (R29, R77, R78, R169) -/

/-- Settles O7: a tick, block by block. -/
theorem tickCountsTimers : Obligations.TickCountsTimers := by
  intro s running
  refine ⟨s.tick, congrArg _ (State.whileOn_running running _), ?_, State.chan_tick s, rfl, rfl, rfl, rfl, rfl, rfl,
    rfl, rfl, rfl, rfl⟩
  show (s.time + 1).toNat = _
  rw [BitVec.toNat_add]
  rfl

/-! ### Receptions (R19, R37, R146) -/

theorem Reception.sync_eq (r : Reception) : r.sync = if r = .hunting then .receiving 0 else r := by
  cases r <;> rfl

theorem Reception.truncates_receiving {n : Nat} (h : 2 ≤ n) : (Reception.receiving n).truncates = true :=
  decide_eq_true h

/-- A command of a running part is its effect. -/
theorem next_whileOn {s : State} (running : s.power = .running) (f : State → State) :
    Host.Outcome.next (s.whileOn f) = (.next (f s) : Host.Outcome State Fault Refusal) :=
  congrArg _ (State.whileOn_running running f)

/-- Settles O8, command by command. -/
theorem receptionBeginsAndEnds : Obligations.ReceptionBeginsAndEnds := by
  refine ⟨fun s running => ⟨?_, ?_⟩, fun s n running counted => ⟨fun receiving => ?_, fun receiving => ?_⟩,
    fun s f e running broken => ?_⟩
  · rw [← Reception.sync_eq]
    exact next_whileOn running _
  · rw [← Reception.sync_eq]
    exact next_whileOn running _
  · refine (next_whileOn running _).trans ?_
    rw [if_pos (by rw [receiving, Reception.truncates_receiving counted])]
    rfl
  · refine (next_whileOn running _).trans ?_
    rw [if_pos (by rw [receiving, Reception.truncates_receiving counted])]
    rfl
  · refine (next_whileOn running _).trans ?_
    rw [broken]
    rfl

end Sys2Proof.Machine
end

section
/-! Requests that are refused or that may not begin (R37, R152, R153, R161, R163, R164). -/

namespace Sys2Proof.Machine

/-! ### What an answer shows of its status -/

/-- An answer is told by its status and its data. -/
theorem Mgmt.answered_injective {m : Mgmt} {q : Request} {rest : List Request} {x y : Status} {data data' : List Byte}
    (h : m.answered q rest x data = m.answered q rest y data') : x = y := by
  have responses := congrArg Mgmt.responses h
  simp only [Mgmt.answered, List.append_cancel_left_eq, List.cons.injEq, Response.mk.injEq] at responses
  obtain ⟨⟨-, -, status, -⟩, -⟩ := responses
  exact status

/-- While the head request stays, it has not been answered. -/
theorem Mgmt.ne_answered {m : Mgmt} {q : Request} {rest : List Request} (head : m.requests = q :: rest) (x : Status)
    (data : List Byte) : m ≠ m.answered q rest x data := fun h => by
  have requests : q :: rest = rest := head.symm.trans (congrArg Mgmt.requests h)
  exact absurd (congrArg List.length requests) (by simp)

section
variable {s t : State} {q : Request} {rest : List Request} {x : Status} {data : List Byte}
  (head : s.mgmt.requests = q :: rest) (answer : t.mgmt = s.mgmt.answered q rest x data) (refused : x ≠ .ok)
include head answer refused

/-- The owner of an executed request has refused it, when the status is not OK. -/
theorem eq_answered_of_execute {R : State → State → Prop} (hR : ∀ s u, R s u → u.mgmt = s.mgmt) {is : Byte → Bool}
    {owner : State → List Byte → Answer} (answers : ownerAnswers R owner) (ready : s.executable = some q)
    (executed : t = s.execute is owner) : t = s.answered q rest x [] := by
  by_cases named : is q.command = true
  · rw [State.execute_of_executable owner ready named] at executed
    obtain ⟨y, refusal⟩ | ⟨u, d, related, carried⟩ := answers s q.params
    · rw [refusal, State.complete_refuse head] at executed
      subst executed
      rw [Mgmt.answered_injective answer]
    · have mgmt := hR s u related
      rw [carried] at executed
      have done : t.mgmt = s.mgmt.answered q rest .ok d := by
        rw [executed, ← mgmt]
        exact congrArg State.mgmt (State.complete_eq_answered (mgmt ▸ head) .ok d)
      exact absurd (Mgmt.answered_injective (answer.symm.trans done)) refused
  · rw [State.execute_of_not owner fun p hp => by
      obtain rfl := Option.some.inj (ready.symm.trans hp)
      simpa using named] at executed
    subst executed
    exact absurd answer (Mgmt.ne_answered head x data)

/-- SWAP_ROUTES refuses only a parameter block; otherwise it is carried out or waits (R37). -/
theorem eq_answered_of_beginSwap {params : List Byte} (begun : t = s.beginSwap params) :
    t = s.answered q rest x [] := by
  subst begun
  unfold State.beginSwap at answer ⊢
  split at answer
  · rw [if_pos (by assumption), State.complete_eq_answered head]
    rw [State.complete_eq_answered head] at answer
    rw [Mgmt.answered_injective answer]
  · split at answer
    · have head' : s.takeSwap.mgmt.requests = q :: rest := by rw [State.takeSwap_mgmt]; exact head
      rw [State.complete_eq_answered head', State.answered_mgmt, State.takeSwap_mgmt] at answer
      exact absurd (Mgmt.answered_injective answer).symm refused
    · exact absurd answer (Mgmt.ne_answered head x data)

end

theorem State.ready.running {s : State} {q : Request} {rest : List Request} (ready : s.ready q rest) :
    s.power = .running := ready.1

/-- With a swap waiting, or with no free place in the Response Queue, no request may begin (R37, R161, R164). -/
theorem State.executable_eq_none {s : State} (h : s.inlet.swap ≠ .none ∨ 4 ≤ s.mgmt.responses.length) :
    s.executable = none := by
  refine Option.eq_none_iff_forall_ne_some.mpr fun q ready => ?_
  obtain ⟨swap, place, -⟩ := State.executable_eq_some.mp ready
  obtain waiting | full := h
  · exact waiting swap
  · exact absurd place (Nat.not_lt.mpr full)

/-- SWAP_ROUTES, by the head request that may begin (R37). -/
theorem exec_swapRoutes (s : State) :
    exec .swapRoutes s = .next (s.whileOn fun s =>
      match s.executable with
      | some q => if q.command = Config.cmdSwapRoutes then s.beginSwap q.params else s
      | none => s) := rfl

/-- Settles O40: an owner refuses or carries out, and a completion shows which. -/
theorem refusedRequestChangesNothing : Obligations.RefusedRequestChangesNothing := by
  refine ⟨fun s t q rest i x data row ready h answer refused => ?_, fun s i row blocked => ?_⟩
  · have may := State.executable_of_ready ready
    by_cases swap : i = .swapRoutes
    · subst swap
      have begun := (exec_swapRoutes s).symm.trans h
      rw [State.whileOn_running ready.running, may] at begun
      injection begun with begun
      dsimp only at begun
      split at begun
      · exact eq_answered_of_beginSwap ready.head answer refused begun.symm
      · subst begun
        exact absurd answer (Mgmt.ne_answered ready.head x data)
    · obtain ⟨is, owner, answers, executes⟩ := rowOwnedBy_mgmt ⟨row, swap⟩
      have executed := (executes s).symm.trans h
      rw [State.whileOn_running ready.running] at executed
      injection executed with executed
      exact eq_answered_of_execute ready.head answer refused (fun _ _ h => h) answers may executed.symm
  · have none := State.executable_eq_none blocked
    have still : ∀ {f : State → State}, f s = s →
        Host.Outcome.next (s.whileOn f) = (.next s : Host.Outcome State Fault Refusal) := fun hf =>
      congrArg _ (State.whileOn_keeps (P := (· = s)) rfl hf)
    by_cases swap : i = .swapRoutes
    · subst swap
      exact still (by rw [none])
    · obtain ⟨is, owner, -, executes⟩ := rowOwnedBy_mgmt ⟨row, swap⟩
      rw [executes]
      exact still (State.execute_of_not owner fun q hq => absurd (none.symm.trans hq) nofun)

end Sys2Proof.Machine
end

section
/-! SET_ROUTE, DROP_ROUTE and COPY_ROUTES (R34–R36, R191). -/

namespace Sys2Proof.Machine

/-- Two entries of at least one lane share a channel exactly where their ranges overlap (R21). -/
theorem Route.overlaps_iff {a b : Route} (ha : 1 ≤ a.lanes) (hb : 1 ≤ b.lanes) :
    a.overlaps b = true ↔ ∃ c, a.covers c = true ∧ b.covers c = true := by
  simp only [Route.overlaps, Route.covers, Bool.and_eq_true, decide_eq_true_eq]
  constructor
  · rintro ⟨hab, hba⟩
    exact ⟨⟨max a.base.val b.base.val, by omega⟩, by dsimp only; omega⟩
  · rintro ⟨c, hac, hbc⟩
    omega

/-- The entry shares a channel with an entry of another source in the bank. -/
def Route.clashes (r : Route) (bank : List Route) : Prop :=
  ∃ x ∈ bank, x.source ≠ r.source ∧ ∃ c, x.covers c = true ∧ r.covers c = true

theorem Route.clashes_iff {r : Route} {bank : List Route} (ok : bankOk bank) (lanes : 1 ≤ r.lanes) :
    r.clashes bank ↔ bank.any (fun x => x.source != r.source && x.overlaps r) = true := by
  simp only [Route.clashes, List.any_eq_true, Bool.and_eq_true, bne_iff_ne]
  refine exists_congr fun x => and_congr_right fun hx => and_congr_right fun _ => ?_
  obtain ⟨least, -⟩ := ok.fields x hx
  exact (Route.overlaps_iff least lanes).symm

section
variable {s : State} {q : Request} {rest : List Request} (ready : s.ready q rest)
include ready

theorem exec_setRoute_badValue {b0 b1 b2 b3 b4 b5 : Byte} (command : q.command = 0x20)
    (params : q.params = [b0, b1, b2, b3, b4, b5])
    (h : 64 ≤ b1.toNat ∨ b2.toNat = 0 ∨ 16 < b2.toNat ∨ 64 < b1.toNat + b2.toNat ∨ 2 ≤ b3.toNat) :
    exec .setRoute s = .next (s.answered q rest .badValue []) := by
  refine exec_refused ready rfl command ?_
  simp only [ownSetRoute, params, parseRoute_eq_none h]

section
variable {b0 b1 b2 b3 b4 b5 : Byte} {r : Route} (command : q.command = 0x20)
  (params : q.params = [b0, b1, b2, b3, b4, b5]) (parsed : parseRoute b0 b1 b2 b3 b4 b5 = some r)
  (ok : bankOk s.inlet.shadow) (lanes : 1 ≤ r.lanes)
include command params parsed ok lanes

theorem exec_setRoute_clash (clash : r.clashes s.inlet.shadow) :
    exec .setRoute s = .next (s.answered q rest .badValue []) := by
  refine exec_refused ready rfl command ?_
  simp only [ownSetRoute, params, parsed, if_pos ((Route.clashes_iff ok lanes).mp clash)]

theorem exec_setRoute_full (apart : ¬ r.clashes s.inlet.shadow) (full : s.inlet.shadow.length = 24)
    (new : ∀ x ∈ s.inlet.shadow, x.source ≠ r.source) : exec .setRoute s = .next (s.answered q rest .full []) := by
  refine exec_refused ready rfl command ?_
  have unplaced : (decide (Config.routeCapacity ≤ s.inlet.shadow.length) &&
      !s.inlet.shadow.any (·.source == r.source)) = true := by
    simpa [full, Config.routeCapacity] using new
  simp only [ownSetRoute, params, parsed, if_neg fun h => apart ((Route.clashes_iff ok lanes).mpr h), unplaced, if_true]

theorem exec_setRoute_placed (apart : ¬ r.clashes s.inlet.shadow)
    (room : s.inlet.shadow.length < 24 ∨ ∃ x ∈ s.inlet.shadow, x.source = r.source) :
    exec .setRoute s = .next { s.answered q rest .ok [] with
      inlet := { s.inlet with shadow := insertRoute r s.inlet.shadow } } := by
  refine exec_accepted (u := s.modInlet fun i => { i with shadow := insertRoute r i.shadow }) ready rfl command ?_ rfl
  have placed : (decide (Config.routeCapacity ≤ s.inlet.shadow.length) &&
      !s.inlet.shadow.any (·.source == r.source)) = false := by
    obtain short | ⟨x, hx, same⟩ := room
    · have room : ¬ Config.routeCapacity ≤ s.inlet.shadow.length := Nat.not_le.mpr short
      rw [decide_eq_false room, Bool.false_and]
    · simpa using fun _ => ⟨x, hx, same⟩
  simp only [ownSetRoute, params, parsed, if_neg fun h => apart ((Route.clashes_iff ok lanes).mpr h), placed,
    Bool.false_eq_true, if_false]

end

theorem exec_dropRoute_notFound {b : Byte} (command : q.command = 0x21) (params : q.params = [b])
    (absent : ∀ x ∈ s.inlet.shadow, x.source ≠ b) : exec .dropRoute s = .next (s.answered q rest .notFound []) := by
  refine exec_refused ready rfl command ?_
  have none : s.inlet.shadow.any (·.source == b) = false := by simpa using absent
  simp only [ownDropRoute, params, none, Bool.false_eq_true, if_false]

theorem exec_dropRoute_removed {b : Byte} (command : q.command = 0x21) (params : q.params = [b])
    (present : ∃ x ∈ s.inlet.shadow, x.source = b) :
    exec .dropRoute s = .next { s.answered q rest .ok [] with
      inlet := { s.inlet with shadow := s.inlet.shadow.filter fun x => x.source ≠ b } } := by
  have filters : (fun x : Route => decide (x.source ≠ b)) = fun x => x.source != b := by
    funext x
    by_cases h : x.source = b <;> simp [h]
  rw [filters]
  refine exec_accepted (u := s.modInlet fun i => { i with shadow := i.shadow.filter (·.source != b) }) ready rfl command
    ?_ rfl
  have found : s.inlet.shadow.any (·.source == b) = true := by simpa using present
  simp only [ownDropRoute, params, found, if_true]

theorem exec_copyRoutes_copied (command : q.command = 0x22) (params : q.params = []) :
    exec .copyRoutes s = .next { s.answered q rest .ok [] with
      inlet := { s.inlet with shadow := s.inlet.active.map (·.route) } } := by
  refine exec_accepted (u := s.modInlet fun i => { i with shadow := i.active.map (·.route) }) ready rfl command ?_ rfl
  simp only [ownCopyRoutes, params, if_true]

end

/-- Settles O46, request by request. -/
theorem routeEdits : Obligations.RouteEdits := by
  intro s q rest ready
  refine ⟨fun b0 b1 b2 b3 b4 b5 command params => ⟨exec_setRoute_badValue ready command params,
    fun base hbase least most within mirror => ?_⟩, fun b command params =>
    ⟨exec_dropRoute_notFound ready command params, exec_dropRoute_removed ready command params⟩,
    exec_copyRoutes_copied ready⟩
  intro r clash ok
  have parsed : parseRoute b0 b1 b2 b3 b4 b5 = some r := parseRoute_eq_some hbase least most within mirror
  exact ⟨exec_setRoute_clash ready command params parsed ok least,
    exec_setRoute_full ready command params parsed ok least, fun apart room =>
    ⟨_, exec_setRoute_placed ready command params parsed ok least apart room, mem_insertRoute ok.sources_ascend⟩⟩

end Sys2Proof.Machine
end

section
/-! A swap taken: banks, tracking, unrouted channels and their records (R37–R39, R57, R83). -/

namespace Sys2Proof.Machine

/-- The channels whose lane the swap takes away, in ascending order (R39). -/
def State.swapList (s : State) : List ChanNo :=
  allChannels.filter (unroutedBy (s.inlet.active.map (·.route)) s.inlet.shadow)

theorem State.swapList_nodup (s : State) : s.swapList.Nodup := allChannels_nodup.filter _

theorem State.mem_swapList {s : State} (ok : s.routesOk) (c : ChanNo) :
    s.unroutes c ↔ c ∈ s.swapList ∧ (s.chan c).running = true := by
  rw [State.unroutes_iff ok, State.swapList, List.mem_filter]
  simp only [mem_allChannels, true_and]

/-- An unroute event, as it maps a channel (R83). -/
def Channel.unrouted (ch : Channel) : Channel :=
  if ch.running then
    { ch with
      run := { ch.run with state := .settling, engaged := false, confirm := 0, rejectRun := 0, baseline := none
                           cause := .settle, maxActive := none, quiet := none }
      window := { ch.window with openWin := none, lastMean := none, lastRate := 0 } }
  else ch

theorem State.chan_takeSwap (s : State) (c : ChanNo) :
    s.takeSwap.chan c = if c ∈ s.swapList then (s.chan c).unrouted else s.chan c :=
  chan_foldl_events State.unrouteEvent Channel.unrouted State.chan_unrouteEvent
    (fun s c d hd => (channelSide_unrouteEvent (P := (· = c)) s c rfl).others d hd) _ s.swapList_nodup _ c

theorem State.takeSwap_windows (s : State) (c : ChanNo) :
    s.takeSwap.counters.windows[c] =
      if c ∈ s.swapList ∧ (s.chan c).running = true then s.abandonCounts c else s.counters.windows[c] :=
  foldl_unroute_windows _ s.swapList_nodup _ c

/-- A swap taken is as the statements say (R38, R39, R57, R102). -/
theorem State.swapped_takeSwap {s : State} (ok : s.routesOk) : s.swapped s.takeSwap := by
  have side := channelSide_takeSwap s
  have member := State.mem_swapList ok
  refine ⟨by rw [State.takeSwap_inlet]; rfl, by rw [State.takeSwap_inlet]; rfl, by rw [State.takeSwap_inlet]; rfl,
    by rw [State.takeSwap_inlet]; rfl, fun c unrouted => ?_, fun c kept => ?_,
    ⟨s.swapList.filter fun c => (s.chan c).running && (s.chan c).run.engaged, ?_, fun c => ?_, ?_⟩, side.power,
    side.time, groups_foldl_unroute _ _, side.profiles, side.link, side.pending⟩
  · obtain ⟨listed, running⟩ := (member c).mp unrouted
    rw [State.chan_takeSwap, State.takeSwap_windows, if_pos listed, if_pos ⟨listed, running⟩, Channel.unrouted,
      if_pos running]
    exact ⟨rfl, rfl, rfl, rfl⟩
  · have stays := fun h => kept ((member c).mpr h)
    rw [State.takeSwap_windows, if_neg stays, State.chan_takeSwap]
    refine ⟨?_, rfl⟩
    split
    · rename_i listed
      exact if_neg fun running => stays ⟨listed, running⟩
    · rfl
  · exact ((List.pairwise_lt_finRange 64).filter _).filter _
  · rw [List.mem_filter, member, Bool.and_eq_true, and_assoc]
  · exact foldl_unroute_records _ s.swapList_nodup _ s s.sameRecords_refl

section
variable {s : State} {q : Request} {rest : List Request} (ok : s.routesOk) (head : s.mgmt.requests = q :: rest)
include ok head

/-- The completion of a swap answers its request OK, and is no part of what the swap makes of the other blocks (R163). -/
theorem takeSwap_complete :
    s.swapped (s.takeSwap.complete .ok []) ∧ (s.takeSwap.complete .ok []).mgmt = s.mgmt.answered q rest .ok [] := by
  rw [State.complete_eq_answered (by rw [State.takeSwap_mgmt]; exact head), State.answered_mgmt, State.takeSwap_mgmt]
  exact ⟨State.swapped_takeSwap ok, rfl⟩

end

/-- SWAP_ROUTES without parameters, at its begin (R37). -/
theorem exec_swapRoutes_begins {s : State} {q : Request} {rest : List Request} (ready : s.ready q rest)
    (command : q.command = 0x23) (params : q.params = []) : exec .swapRoutes s = .next (s.beginSwap []) := by
  have named : q.command = Config.cmdSwapRoutes := command
  rw [exec_swapRoutes, State.whileOn_running ready.running, State.executable_of_ready ready]
  simp only [named, if_true, params]

theorem exec_swapTaken_due {s : State} (running : s.power = .running) (due : s.inlet.swap = .due) :
    exec .swapTaken s = .next (s.takeSwap.complete .ok []) := by
  refine (next_whileOn running _).trans ?_
  rw [State.takeDueSwap, if_pos due]

/-- Settles O47: the swap is taken by SWAP_ROUTES or by SWAP_TAKEN, in the same way. -/
theorem swapTakenAtFrameBoundary : Obligations.SwapTakenAtFrameBoundary := by
  intro s q rest ok command params
  refine ⟨fun ready hunting => ⟨_, ?_, takeSwap_complete ok ready.head⟩, fun ready receiving => ?_,
    fun running due head => ⟨_, exec_swapTaken_due running due, takeSwap_complete ok head⟩⟩
  · rw [exec_swapRoutes_begins ready command params, State.beginSwap, if_neg (not_not.mpr rfl), if_pos hunting]
  · rw [exec_swapRoutes_begins ready command params, State.beginSwap, if_neg (not_not.mpr rfl), if_neg receiving]
    rfl

end Sys2Proof.Machine
end

section
/-! A RESTART without parameters (R37, R172–R175). -/

namespace Sys2Proof.Machine

theorem Mgmt.arrival_restart (m : Mgmt) (tag : Byte) :
    m.arrival { tag := tag, command := 0x41, params := [] } = .restart := by
  rw [Mgmt.arrival, if_pos ⟨rfl, rfl⟩]

/-- A RESTART restarts the part once a due swap has been taken (R155, R175). -/
theorem exec_requestFrame_restart {s : State} {f : RawFrame} {tag : Byte} (running : s.power = .running)
    (frame : checkInbound f = .request tag 0x41 []) :
    exec (.requestFrame f) s = .next (s.endInbound.takeDueSwap.restart tag) := by
  refine (next_whileOn running _).trans ?_
  simp only [frame, State.takeRequest, Mgmt.arrival_restart]

/-- Settles O37: the restart, block by block; of a due swap it keeps the exchange of the banks only. -/
theorem restartKeepsConfiguration : Obligations.RestartKeepsConfiguration := by
  intro s f tag running frame
  refine ⟨_, exec_requestFrame_restart running frame, ?_⟩
  rw [State.restart_takeDueSwap]
  refine ⟨rfl, rfl, rfl, rfl, rfl, rfl, ⟨rfl, rfl⟩, s.endInbound.chan_restart tag, fun g => ?_, rfl, rfl,
    Events.del_initial, rfl, rfl, rfl, rfl, rfl, rfl, rfl, rfl, rfl, rfl, rfl, rfl, rfl, rfl, rfl, rfl, rfl, fun x => ?_,
    CounterBank.get_initial, CounterBank.windows_initial⟩
  · exact getElem_vmap _ _ _ _
  · cases x <;> rfl

end Sys2Proof.Machine
end

section
/-! A frame that is not taken (R19, R20, R23, R24, R26), and a declared silence (R30, R81). -/

namespace Sys2Proof.Machine

/-! ### Frames that are not taken -/

theorem State.takeDueSwap_of_not_due {s : State} (h : s.inlet.swap ≠ .due) : s.takeDueSwap = s := by
  rw [State.takeDueSwap, if_neg h]

/-- A frame that finds no due swap is checked and handled, and its reception ends (R19, R20). -/
theorem exec_sampleFrame_handled {s : State} (running : s.power = .running) (notDue : s.inlet.swap ≠ .due)
    (f : RawFrame) : exec (.sampleFrame f) s = .next ((s.handleInlet f).modInlet Inlet.endReception) := by
  refine (next_whileOn running _).trans ?_
  rw [State.takeDueSwap_of_not_due notDue]

/-- The distance decides (R24, R26). -/
theorem classify_stale {k : Tracking} {sequence : Byte} (synced : k.synced = true)
    (far : 128 ≤ (sequence - k.expected).toNat) : classify k sequence = .stale := by
  simp only [classify, synced, Bool.not_true, Bool.false_eq_true, if_false]
  rw [if_neg (by omega), if_neg (by omega)]

/-- Settles O11, by the three places where a frame's handling ends early. -/
theorem untakenFrameIsOnlyCounted : Obligations.UntakenFrameIsOnlyCounted := by
  intro s f running notDue t
  have counted : ∀ {k : GlobalCounter}, s.handleInlet f = s.raise k → exec (.sampleFrame f) s = .next (t.raise k) :=
    fun {k} h => (exec_sampleFrame_handled running notDue f).trans (by rw [h]; rfl)
  refine ⟨fun e broken => counted ?_, fun m sound unknown => counted ?_, fun m a sound found synced far => counted ?_⟩
  · rw [State.handleInlet, broken]
  · rw [State.handleInlet, sound]
    simp only [State.routeFrame, Inlet.lookup_eq_none unknown]
  · rw [State.handleInlet, sound]
    simp only [State.routeFrame, found, classify_stale synced far]

/-! ### A declared silence -/

/-- A silence event, as it maps a channel (R81). -/
def Channel.silenced (ch : Channel) : Channel :=
  if ch.running then
    { ch with
      run := { ch.run with
        state := .silent, engaged := false, confirm := 0, rejectRun := 0, quiet := none
        maxActive := if ch.run.engaged then none else ch.run.maxActive }
      window := { ch.window with openWin := none } }
  else ch

theorem chan_foldl_silence (l : List ChanNo) (hl : l.Nodup) (s : State) (c : ChanNo) :
    (l.foldl State.silenceEvent s).chan c = if c ∈ l then (s.chan c).silenced else s.chan c :=
  chan_foldl_events State.silenceEvent Channel.silenced State.chan_silenceEvent
    (fun s c d hd => (channelSide_silenceEvent (P := (· = c)) s c rfl).others d hd) l hl s c

/-- The silence events of distinct channels: each running one's open window counts as abandoned (R57, R61). -/
theorem foldl_silence_windows (l : List ChanNo) (hl : l.Nodup) (s : State) (d : ChanNo) :
    (l.foldl State.silenceEvent s).counters.windows[d] =
      if d ∈ l ∧ (s.chan d).running = true then s.abandonCounts d else s.counters.windows[d] := by
  induction l generalizing s with
  | nil => simp
  | cons c l ih =>
    obtain ⟨new, hl⟩ := List.nodup_cons.mp hl
    have first : ∀ d : ChanNo, (s.silenceEvent c).counters.windows[d] =
        if d = c ∧ (s.chan c).running = true then s.abandonCounts c else s.counters.windows[d] := fun d => by
      rw [State.silenceEvent_windows]
      by_cases running : (s.chan c).running = true
      · simp only [running, if_true, and_true]
        exact s.abandon_windows c d
      · simp [running]
    rw [List.foldl_cons, ih hl, first]
    by_cases hd : d = c
    · subst hd
      simp [new]
    · have same := (channelSide_silenceEvent (P := (· = c)) s c rfl).others d hd
      have counts : (s.silenceEvent c).abandonCounts d = s.abandonCounts d := by
        simp only [State.abandonCounts, same, first, hd, false_and, if_false]
      simp only [same, counts, List.mem_cons, hd, false_and, if_false, false_or]

theorem groups_foldl_silence (l : List ChanNo) (s : State) : (l.foldl State.silenceEvent s).groups = s.groups := by
  induction l generalizing s with
  | nil => rfl
  | cons c l ih => rw [List.foldl_cons, ih, State.silenceEvent_groups]

section
variable (s : State) (a : ActiveRoute)

theorem State.chan_declareSilent (c : ChanNo) :
    (s.declareSilent a).chan c = if c ∈ a.route.range then (s.chan c).silenced else s.chan c :=
  chan_foldl_silence _ (range_nodup a.route) _ c

theorem State.declareSilent_windows (c : ChanNo) :
    (s.declareSilent a).counters.windows[c] =
      if c ∈ a.route.range ∧ (s.chan c).running = true then s.abandonCounts c else s.counters.windows[c] :=
  foldl_silence_windows _ (range_nodup a.route) _ c

theorem State.declareSilent_records :
    (s.declareSilent a).sameRecords
      ((a.route.range.filter fun c => (s.chan c).running).foldl (fun u c =>
        (if (s.chan c).run.engaged then u.hand c (.release .silent none) else u).hand c .silent) s) :=
  foldl_silence_records _ (range_nodup a.route) _ s s.sameRecords_refl

end

theorem Channel.running_iff (ch : Channel) : ch.running = true ↔ ch.config.mode ≠ .off := by simp [Channel.running]

theorem State.sameRecords.counter {s t : State} (h : s.sameRecords t) (k : GlobalCounter) :
    s.counters.get k = t.counters.get k := by
  obtain ⟨-, -, counters, -⟩ := h
  rw [CounterBank.get, CounterBank.get, counters]

/-- The expiry of a silence timer that has run out declares its route silent, and of no other (R30). -/
theorem exec_silenceTimerExpiry {s : State} {source : Byte} {a : ActiveRoute} (running : s.power = .running)
    (found : s.inlet.lookup source = some a) :
    exec (.silenceTimerExpiry source) s = .next (if a.track.timer = some 0 then s.declareSilent a else s) := by
  refine (next_whileOn running _).trans ?_
  simp only [found, timerExpired, beq_iff_eq]

/-- Settles O13, by the silence events of the range's channels. -/
theorem silenceExpiryReachesItsRange : Obligations.SilenceExpiryReachesItsRange := by
  intro s source a running found
  refine ⟨fun due => ⟨s.declareSilent a, ?_, ?_, fun c covered on => ?_, fun c passed => ?_,
    ⟨a.route.range.filter fun c => (s.chan c).running, (range_pairwise a.route).filter _, fun c => ?_, ?_⟩, ?_⟩,
    fun notDue => ?_⟩
  · rw [exec_silenceTimerExpiry running found, if_pos due]
  · rw [State.declareSilent_inlet, Inlet.lookup_source found]
    rfl
  · have listed : c ∈ a.route.range := (mem_range _ c).mpr covered
    have runs := (Channel.running_iff _).mpr on
    rw [State.declareSilent_windows, if_pos (And.intro listed runs), State.chan_declareSilent, if_pos listed,
      Channel.silenced, if_pos runs]
    exact ⟨rfl, rfl⟩
  · have stays : ¬ (c ∈ a.route.range ∧ (s.chan c).running = true) := fun ⟨listed, runs⟩ => by
      obtain outside | off := passed
      · exact absurd ((mem_range _ c).mp listed) (by simp [outside])
      · exact (Channel.running_iff _).mp runs off
    rw [State.declareSilent_windows, if_neg stays, State.chan_declareSilent]
    refine ⟨?_, rfl⟩
    split
    · rename_i listed
      exact if_neg fun runs => stays ⟨listed, runs⟩
    · rfl
  · rw [List.mem_filter, mem_range, Channel.running_iff]
  · obtain ⟨events, alert, -⟩ := s.declareSilent_records a
    exact ⟨events, alert, (s.declareSilent_records a).counter⟩
  · have side :=
      channelSide_silences (s.modTrack a.route.source fun k => { k with silent := true, timer := none }) a.route
    exact ⟨side.power, side.time, groups_foldl_silence _ _, side.profiles, side.link, side.mgmt, side.pending⟩
  · rw [exec_silenceTimerExpiry running found, if_neg notDue]

end Sys2Proof.Machine
end

section
/-! The channel events, their records and the windows they abandon (R30, R31, R57, R61, R65, R79, R82–R84). -/

namespace Sys2Proof.Machine

section
variable (s : State) (c : ChanNo)

theorem State.sameRecords_silence (on : (s.chan c).config.mode ≠ .off) :
    (s.silenceEvent c).sameRecords
      (s.handAll c ((if (s.chan c).run.engaged then [.release .silent none] else []) ++ [.silent])) := by
  have records := State.sameRecords_silenceEvent s.sameRecords_refl c
  rw [if_pos ((Channel.running_iff _).mpr on)] at records
  split at records
  · rw [if_pos (by assumption)]
    exact records
  · rw [if_neg (by assumption)]
    exact records

theorem State.resumeEvent_of_not_silent (h : (s.chan c).run.state ≠ .silent) : s.resumeEvent c = s := by
  rw [State.resumeEvent, if_neg h]

/-- A resume event with a valid baseline (R77, R82). -/
theorem State.chan_resumeEvent_idle {b : Nat} (silent : (s.chan c).run.state = .silent)
    (baseline : (s.chan c).run.baseline = some b) :
    (s.resumeEvent c).chan c = { s.chan c with run := { (s.chan c).run with
      state := .idle, confirm := 0, quiet := some (s.profiles[(s.chan c).config.profile].driftInterval * 100) } } := by
  rw [State.resumeEvent, if_pos silent]
  simp only [State.chan_hand, baseline, State.enterIdle, State.chan_modRun_same, tenths, State.profileOf,
    State.hand_profiles]

/-- A resume event without a baseline (R67, R82). -/
theorem State.chan_resumeEvent_settling (silent : (s.chan c).run.state = .silent)
    (baseline : (s.chan c).run.baseline = none) :
    (s.resumeEvent c).chan c = { s.chan c with
      window := { (s.chan c).window with lastMean := none, lastRate := 0 }
      run := { (s.chan c).run with state := .settling, engaged := false, confirm := 0, rejectRun := 0
                                   baseline := none, cause := .settle, maxActive := none, quiet := none } } := by
  rw [State.resumeEvent, if_pos silent]
  simp only [State.chan_hand, baseline, State.chan_enterSettling]

/-- The window of channel `c` is gone in `t`, counted as abandoned when it was open, and no other channel's counts have
moved (R57, R61). -/
def State.countedAbandoned (t : State) : Prop :=
  (t.chan c).window.openWin = none ∧ t.counters.windows[c] = s.abandonCounts c ∧
  ∀ d ≠ c, t.counters.windows[d] = s.counters.windows[d]

/-- An event that abandons the window, and then touches no window counter. -/
theorem State.countedAbandoned_of_windows {t : State} (gone : (t.chan c).window.openWin = none)
    (windows : t.counters.windows = (s.abandon c).counters.windows) : s.countedAbandoned c t := by
  refine ⟨gone, ?_, fun d hd => ?_⟩
  · rw [windows, State.abandon_windows, if_pos rfl]
  · rw [windows, State.abandon_windows, if_neg hd]

theorem State.countedAbandoned_abandon : s.countedAbandoned c (s.abandon c) :=
  s.countedAbandoned_of_windows c (by rw [State.chan_abandon]) rfl

theorem State.countedAbandoned_silence (on : (s.chan c).config.mode ≠ .off) :
    s.countedAbandoned c (s.silenceEvent c) := by
  have running := (Channel.running_iff _).mpr on
  refine s.countedAbandoned_of_windows c ?_ ?_
  · rw [State.chan_silenceEvent, if_pos running]
  · rw [State.silenceEvent_windows, if_pos running]

theorem State.countedAbandoned_unroute (on : (s.chan c).config.mode ≠ .off) :
    s.countedAbandoned c (s.unrouteEvent c) := by
  have running := (Channel.running_iff _).mpr on
  refine s.countedAbandoned_of_windows c ?_ ?_
  · rw [State.chan_unrouteEvent, if_pos running]
  · rw [State.unrouteEvent_windows, if_pos running]

theorem State.countedAbandoned_stuck : s.countedAbandoned c (s.stuckExpiry c) := by
  refine s.countedAbandoned_of_windows c ?_ (s.stuckExpiry_windows c)
  rw [State.stuckExpiry, State.chan_enterSettling, State.chan_endEngagement, State.chan_hand, State.chan_abandon]
  split <;> rfl

theorem State.countedAbandoned_force : s.countedAbandoned c (s.forceSettling c) := by
  refine s.countedAbandoned_of_windows c ?_ (s.forceSettling_windows c)
  rw [State.forceSettling, State.chan_endSettling]

/-- Nothing else follows from an abandonment (R57, R58). -/
theorem State.abandon_eq :
    ∃ windows, s.abandon c =
      { s.setChan c { s.chan c with window := { (s.chan c).window with openWin := none } } with
        counters := { s.counters with windows := windows } } := by
  refine ⟨(s.abandon c).counters.windows, ?_⟩
  unfold State.abandon
  split
  · rename_i closed
    have same : { s.chan c with window := { (s.chan c).window with openWin := none } } = s.chan c := by
      rw [← closed]
    have channels : s.channels.set c.val (s.chan c) = s.channels := Vector.set_getElem_self _
    rw [same, State.setChan, channels]
  · rfl

end

/-- Settles O21, event by event. -/
theorem channelEventsAndTheirRecords : Obligations.ChannelEventsAndTheirRecords := by
  refine ⟨fun s c => ⟨s.sameRecords_silence c, s.sameRecords_resumeEvent c, s.sameRecords_unrouteEvent c,
    fun m => s.sameRecords_stuckExpiry c, s.sameRecords_forceSettling c, fun t ht => ?_⟩, fun s c =>
    ⟨fun d hd => (channelSide_resumeEvent (P := (· = c)) s c rfl).others d hd, s.resumeEvent_of_not_silent c,
      fun b => s.chan_resumeEvent_idle c, s.chan_resumeEvent_settling c⟩, fun s c =>
    ⟨s.countedAbandoned_abandon c, s.abandon_eq c,
      fun on => ⟨s.countedAbandoned_silence c on, s.countedAbandoned_unroute c on⟩, s.countedAbandoned_stuck c,
      s.countedAbandoned_force c⟩⟩
  simp only [List.mem_cons, List.not_mem_nil, or_false] at ht
  obtain rfl | rfl | rfl | rfl | rfl := ht
  · exact s.sameElsewhere_silenceEvent c
  · exact s.sameElsewhere_resumeEvent c
  · exact s.sameElsewhere_unrouteEvent c
  · exact s.sameElsewhere_stuckExpiry c
  · exact s.sameElsewhere_forceSettling c

end Sys2Proof.Machine
end

section
/-! The frames that the receivers' checks pass, field by field, and the bytes of the two links read into commands (R19,
R20, R146, R187, R188, R190). -/

namespace Sys2Proof.Machine

/-! ### The CRC check (R187) -/

/-- A frame passes check 1 exactly when it carries its right CRC. -/
theorem crcMatches_iff (f : RawFrame) : crcMatches f = true ↔ f = mkFrame f.kind f.payload := by
  obtain ⟨kind, payload, crc⟩ := f
  simp [crcMatches, mkFrame]

theorem crcMatches_mkFrame (kind : Byte) (payload : List Byte) : crcMatches (mkFrame kind payload) = true := by
  simp [crcMatches, mkFrame]

/-! ### Sample fields (R188) -/

/-- The 16 bits of a sample field. -/
def sampleWord (x : Sample) : BitVec 16 := BitVec.ofBool x.overrange ++ (0 : BitVec 3) ++ x.value

theorem sampleWord_toNat (x : Sample) :
    (sampleWord x).toNat = (if x.overrange then 32768 else 0) + x.value.toNat := by
  have := x.value.isLt
  rw [sampleWord, BitVec.toNat_append, BitVec.toNat_append, ← Nat.shiftLeft_add_eq_or_of_lt (by omega)]
  cases x.overrange <;> simp [Nat.shiftLeft_eq]

theorem sampleFieldOk_iff (w : BitVec 16) : sampleFieldOk w = true ↔ w.toNat / 4096 % 8 = 0 := by
  rw [sampleFieldOk, beq_iff_eq, ← BitVec.toNat_inj]
  simp [BitVec.extractLsb'_toNat, Nat.shiftRight_eq_div_pow]

theorem toSample_value (w : BitVec 16) : (toSample w).value.toNat = w.toNat % 4096 := by
  simp [toSample, BitVec.extractLsb'_toNat]

theorem toSample_overrange (w : BitVec 16) : (toSample w).overrange = decide (32768 ≤ w.toNat) := by
  simp [toSample, BitVec.msb_eq_decide]

/-- A field of the right form is the field of the sample read from it. -/
theorem sampleWord_toSample {w : BitVec 16} (ok : sampleFieldOk w = true) : sampleWord (toSample w) = w := by
  have form := (sampleFieldOk_iff w).mp ok
  have := w.isLt
  apply BitVec.eq_of_toNat_eq
  rw [sampleWord_toNat, toSample_value, toSample_overrange]
  by_cases high : 32768 ≤ w.toNat <;> simp [high] <;> omega

/-- The field of a sample has the right form, and the sample is read back from it. -/
theorem sampleWord_reads (x : Sample) : sampleFieldOk (sampleWord x) = true ∧ toSample (sampleWord x) = x := by
  have := x.value.isLt
  have word := sampleWord_toNat x
  refine ⟨(sampleFieldOk_iff _).mpr ?_, ?_⟩
  · rw [word]
    cases x.overrange <;> simp <;> omega
  · have value : (toSample (sampleWord x)).value = x.value := by
      apply BitVec.eq_of_toNat_eq
      rw [toSample_value, word]
      cases x.overrange <;> simp <;> omega
    have overrange : (toSample (sampleWord x)).overrange = x.overrange := by
      rw [toSample_overrange, word]
      cases x.overrange <;> simp
      omega
    exact congrArg₂ Sample.mk value overrange

theorem word16_toNat (hi lo : Byte) : (word16 hi lo).toNat = 256 * hi.toNat + lo.toNat := by
  have := lo.isLt
  rw [word16, BitVec.toNat_append, ← Nat.shiftLeft_add_eq_or_of_lt (by omega), Nat.shiftLeft_eq]
  omega

theorem be16_word16 (hi lo : Byte) : be16 (word16 hi lo) = [hi, lo] := by
  have := lo.isLt
  have := hi.isLt
  simp only [be16_eq_twoBytes, twoBytes, word16_toNat, List.cons.injEq, and_true]
  constructor <;> apply BitVec.eq_of_toNat_eq <;> simp <;> omega

theorem sampleFields_be16 (w : BitVec 16) (rest : List Byte) :
    sampleFields (be16 w ++ rest) = w :: sampleFields rest := by
  obtain ⟨hi, lo, bytes, word⟩ := twoBytes_word16 w
  rw [be16_eq_twoBytes, bytes]
  simp only [List.cons_append, List.nil_append, sampleFields, word]

/-! ### Sample payloads (R188) -/

/-- The bytes of the lanes. -/
def laneBytes (samples : List Sample) : List Byte := samples.flatMap fun x => be16 (sampleWord x)

theorem samplePayload_eq (m : SampleFrame) :
    samplePayload m = m.source :: m.sequence :: BitVec.ofNat 8 m.samples.length :: laneBytes m.samples := rfl

theorem laneBytes_cons (x : Sample) (samples : List Sample) :
    laneBytes (x :: samples) = be16 (sampleWord x) ++ laneBytes samples := by simp [laneBytes]

theorem laneBytes_length (samples : List Sample) : (laneBytes samples).length = 2 * samples.length := by
  induction samples with
  | nil => rfl
  | cons x samples ih => rw [laneBytes_cons, List.length_append, ih, List.length_cons]; simp [be16]; omega

/-- The fields of the lanes' bytes are those of the samples. -/
theorem sampleFields_laneBytes (samples : List Sample) : sampleFields (laneBytes samples) = samples.map sampleWord := by
  induction samples with
  | nil => rfl
  | cons x samples ih => rw [laneBytes_cons, sampleFields_be16, ih, List.map_cons]

/-- Bytes of `n` lanes of the right form are those of the samples read from them. -/
theorem laneBytes_read (n : Nat) : ∀ bytes : List Byte, bytes.length = 2 * n →
    (sampleFields bytes).all sampleFieldOk = true →
    ((sampleFields bytes).map toSample).length = n ∧ laneBytes ((sampleFields bytes).map toSample) = bytes := by
  induction n with
  | zero =>
    intro bytes length _
    obtain rfl := List.length_eq_zero_iff.mp length
    exact ⟨rfl, rfl⟩
  | succ n ih =>
    intro bytes length ok
    match bytes, length with
    | hi :: lo :: rest, length =>
      simp only [sampleFields, List.all_cons, Bool.and_eq_true] at ok
      obtain ⟨count, read⟩ := ih rest (by simpa [Nat.mul_add] using length) ok.2
      refine ⟨congrArg Nat.succ count, ?_⟩
      rw [sampleFields, List.map_cons, laneBytes_cons, sampleWord_toSample ok.1, be16_word16, read]
      rfl
    | [b], length => simp at length; omega
    | [], length => simp at length

/-! ### The checks of R20 -/

/-- A payload passes checks 3 to 5 exactly as that of a frame of 1 to 16 lanes. -/
theorem checkSample_mkSample {m : SampleFrame} (least : 1 ≤ m.samples.length) (most : m.samples.length ≤ 16) :
    checkSample (mkSample m) = .ok m := by
  have lanes : (BitVec.ofNat 8 m.samples.length).toNat = m.samples.length := byte_toNat (by omega)
  have fields : ((m.samples.map sampleWord).all sampleFieldOk) = true := by simp [sampleWord_reads]
  have read : (m.samples.map sampleWord).map toSample = m.samples := by
    simp [Function.comp_def, sampleWord_reads]
  have inside : (decide (m.samples.length < 1) || decide (16 < m.samples.length)) = false := by
    rw [decide_eq_false (by omega), decide_eq_false (by omega), Bool.or_false]
  rw [checkSample, mkSample, crcMatches_mkFrame]
  simp only [mkFrame, samplePayload_eq, Config.kindSample, lanes, inside, laneBytes_length, sampleFields_laneBytes,
    fields, read, Bool.not_true, bne_self_eq_false, Bool.false_eq_true, if_false]

theorem eq_mkSample_of_checkSample {f : RawFrame} {m : SampleFrame} (h : checkSample f = .ok m) :
    f = mkSample m ∧ 1 ≤ m.samples.length ∧ m.samples.length ≤ 16 := by
  obtain ⟨kind, payload, crc⟩ := f
  unfold checkSample at h
  split at h
  · cases h
  rename_i matched
  split at h
  · cases h
  rename_i sample
  obtain rfl : kind = Config.kindSample := by simpa using sample
  split at h
  · rename_i source sequence lanes rest same
    obtain rfl : payload = _ := same
    split at h
    · cases h
    rename_i inside
    split at h
    · cases h
    rename_i length
    split at h
    · cases h
    rename_i form
    cases h
    obtain ⟨count, bytes⟩ := laneBytes_read lanes.toNat rest (by simpa using length) (by simpa using form)
    have range : 1 ≤ lanes.toNat ∧ lanes.toNat ≤ 16 := by simp at inside; omega
    refine ⟨?_, by rw [count]; exact range⟩
    have lanesByte : BitVec.ofNat 8 lanes.toNat = lanes := by simp
    rw [mkSample, samplePayload_eq]
    simp only [count, bytes, lanesByte]
    exact (crcMatches_iff _).mp (by simpa using matched)
  · cases h

/-- Settles O9: the checks by the layout of the lanes, the bytes by the receiver's states. -/
theorem sampleChecksPassExactlySampleFrames : Obligations.SampleChecksPassExactlySampleFrames :=
  ⟨fun _ _ => ⟨eq_mkSample_of_checkSample, fun ⟨frame, least, most⟩ => frame ▸ checkSample_mkSample least most⟩,
    readsLine_events LineEvent.inletCommand, fun _ _ => inletCommands_wellFormed⟩

/-! ### The checks of R146 -/

/-- The two bytes of an Ack payload, each of the right form, are those of the fields read from it (R190). -/
theorem ackByte_read : ∀ b : Byte, b.getLsbD 6 = false →
    BitVec.ofBool b.msb ++ (0 : BitVec 1) ++ b.extractLsb' 0 6 = b := by decide +kernel

theorem grantByte_read : ∀ b : Byte, b.extractLsb' 4 4 = 0 → (0 : BitVec 4) ++ b.extractLsb' 0 4 = b := by
  decide +kernel

theorem parseAck_bytes : ∀ (resend : Bool) (ack : BitVec 6) (grant : BitVec 4),
    parseAck [BitVec.ofBool resend ++ (0 : BitVec 1) ++ ack, (0 : BitVec 4) ++ grant] =
      some { ack := ack, grant := grant.toNat, resend := resend } := by decide +kernel

/-- A payload is read as an Ack payload exactly when it is laid out as R190 gives. -/
theorem parseAck_iff {payload : List Byte} {a : AckFields} :
    parseAck payload = some a ↔ ∃ grant : BitVec 4,
      payload = [BitVec.ofBool a.resend ++ (0 : BitVec 1) ++ a.ack, (0 : BitVec 4) ++ grant] ∧
        a.grant = grant.toNat := by
  constructor
  · intro h
    unfold parseAck at h
    split at h
    · rename_i b0 b1
      split at h
      · cases h
      · rename_i form
        obtain ⟨clear, low⟩ : b0.getLsbD 6 = false ∧ b1.extractLsb' 4 4 = 0 := by simpa using form
        cases h
        exact ⟨b1.extractLsb' 0 4, by rw [ackByte_read b0 clear, grantByte_read b1 low], rfl⟩
    · cases h
  · rintro ⟨grant, rfl, h⟩
    rw [parseAck_bytes, ← h]

theorem checkInbound_ack_iff {f : RawFrame} {a : AckFields} :
    checkInbound f = .ack a ↔ ∃ grant : BitVec 4, f = mkAck a.ack grant a.resend ∧ a.grant = grant.toNat := by
  constructor
  · intro h
    obtain ⟨kind, payload, crc⟩ := f
    unfold checkInbound at h
    split at h
    · cases h
    rename_i matched
    split at h
    · rename_i ack
      obtain rfl : kind = Config.kindAck := by simpa using ack
      split at h
      · rename_i b parsed
        cases h
        obtain ⟨grant, layout, value⟩ := parseAck_iff.mp parsed
        obtain rfl : payload = _ := layout
        exact ⟨grant, (crcMatches_iff _).mp (by simpa using matched), value⟩
      · cases h
    · split at h
      · split at h <;> cases h
      · cases h
  · rintro ⟨grant, rfl, value⟩
    have parsed := parseAck_iff.mpr ⟨grant, rfl, value⟩
    rw [checkInbound, mkAck, crcMatches_mkFrame]
    simp only [mkFrame, parsed, Bool.not_true, Bool.false_eq_true, if_false, beq_self_eq_true, if_true]

theorem checkInbound_request_iff {f : RawFrame} {tag command : Byte} {params : List Byte} :
    checkInbound f = .request tag command params ↔ f = mkRequest tag command params := by
  constructor
  · intro h
    obtain ⟨kind, payload, crc⟩ := f
    unfold checkInbound at h
    split at h
    · cases h
    rename_i matched
    split at h
    · split at h <;> cases h
    · split at h
      · rename_i request
        obtain rfl : kind = Config.kindRequest := by simpa using request
        split at h
        · rename_i layout
          cases h
          obtain rfl : payload = _ := layout
          exact (crcMatches_iff _).mp (by simpa using matched)
        · cases h
      · cases h
  · rintro rfl
    rw [checkInbound, mkRequest, crcMatches_mkFrame]
    simp only [mkFrame, Bool.not_true, Bool.false_eq_true, if_false, beq_self_eq_true, if_true]
    rfl

/-- Settles O10: the checks by the layouts of R190, the bytes by the receiver's states. -/
theorem inboundChecksPassExactlyAckAndRequestFrames : Obligations.InboundChecksPassExactlyAckAndRequestFrames :=
  ⟨fun _ _ => checkInbound_ack_iff, fun _ _ _ _ => checkInbound_request_iff,
    readsLine_events LineEvent.inboundCommand, fun _ _ => inboundCommands_wellFormed⟩

end Sys2Proof.Machine
end

section
/-! A taken frame, step by step (R23–R25, R27–R29, R31, R33, R37). -/

namespace Sys2Proof.Machine

/-! ### What the steps of R28 leave alone -/

/-- `t` differs from `s`, the Inlet Receiver, group tiers, event path, alert and counters apart, at most in the window and
state parts of the channels of `r`. -/
structure RouteSide (r : Route) (s t : State) : Prop where
  power : t.power = s.power
  time : t.time = s.time
  profiles : t.profiles = s.profiles
  link : t.link = s.link
  mgmt : t.mgmt = s.mgmt
  pending : t.pending = s.pending
  config : ∀ c, (t.chan c).config = (s.chan c).config
  others : ∀ c, r.covers c = false → t.chan c = s.chan c
  members : ∀ g : Fin 8, t.groups[g].members = s.groups[g].members

section
variable {r : Route} {s t u : State}

theorem RouteSide.refl (s : State) : RouteSide r s s :=
  ⟨rfl, rfl, rfl, rfl, rfl, rfl, fun _ => rfl, fun _ _ => rfl, fun _ => rfl⟩

theorem RouteSide.trans (h : RouteSide r s t) (k : RouteSide r t u) : RouteSide r s u where
  power := k.power.trans h.power
  time := k.time.trans h.time
  profiles := k.profiles.trans h.profiles
  link := k.link.trans h.link
  mgmt := k.mgmt.trans h.mgmt
  pending := k.pending.trans h.pending
  config c := (k.config c).trans (h.config c)
  others c hc := (k.others c hc).trans (h.others c hc)
  members g := (k.members g).trans (h.members g)

theorem ChannelSide.routeSide (h : ChannelSide (· ∈ r.range) s t) : RouteSide r s t where
  power := h.power
  time := h.time
  profiles := h.profiles
  link := h.link
  mgmt := h.mgmt
  pending := h.pending
  config := h.config
  others c outside := h.others c fun inside => absurd ((mem_range r c).mp inside) (by simp [outside])
  members := h.members

theorem routeSide_modTrack (s : State) (source : Byte) (f : Tracking → Tracking) :
    RouteSide r s (s.modTrack source f) :=
  ⟨rfl, rfl, rfl, rfl, rfl, rfl, fun _ => rfl, fun _ _ => rfl, fun _ => rfl⟩

theorem routeSide_raise (s : State) (k : GlobalCounter) : RouteSide r s (s.raise k) :=
  ⟨rfl, rfl, rfl, rfl, rfl, rfl, fun _ => rfl, fun _ _ => rfl, fun _ => rfl⟩

end

/-! ### Counters raised -/

theorem CounterBank.get_raiseBy (b : CounterBank) (j k : GlobalCounter) (n : Nat) :
    (b.raiseBy j n).get k = if k = j then satAdd (b.get k) n else b.get k := by
  split
  · rename_i same
    rw [same, CounterBank.get_raiseBy_same]
  · exact CounterBank.get_raiseBy_other b n (by assumption)

theorem State.get_raise (s : State) (j k : GlobalCounter) :
    (s.raise j).counters.get k = if k = j then satAdd (s.counters.get k) 1 else s.counters.get k :=
  s.counters.get_raiseBy j k 1

/-! ### Steps 1 to 4 of R28 -/

/-- The frame shows a gap: its entry is synchronised, and the sequence is not the expected one (R24). -/
def ActiveRoute.showsGap (a : ActiveRoute) (sequence : Byte) : Bool :=
  a.track.synced && sequence != a.track.expected

theorem ActiveRoute.showsGap_iff (a : ActiveRoute) (sequence : Byte) :
    a.showsGap sequence = true ↔ a.track.synced = true ∧ sequence ≠ a.track.expected := by
  rw [ActiveRoute.showsGap, Bool.and_eq_true, bne_iff_ne]

/-- The part once a taken frame has been tracked, its silent route resumed, and its gap handled. -/
def State.beforeLanes (s : State) (a : ActiveRoute) (sequence : Byte) : State :=
  ((s.trackFrame a.route sequence).resumeRoute a).takeGap a.route (classify a.track sequence)

theorem distance_eq_zero {x y : Byte} : (x - y).toNat = 0 ↔ x = y := by
  rw [← BitVec.toNat_inj, BitVec.toNat_sub]
  have := x.isLt
  have := y.isLt
  omega

section
variable {a : ActiveRoute} {sequence : Byte} (near : a.track.synced = true → (sequence - a.track.expected).toNat ≤ 127)
include near

/-- The class of a frame that is not stale (R24). -/
theorem classify_near :
    (a.showsGap sequence = true ∧ classify a.track sequence = .gap (sequence - a.track.expected).toNat) ∨
    (a.showsGap sequence = false ∧
      (classify a.track sequence = .first ∨ classify a.track sequence = .inOrder)) := by
  unfold ActiveRoute.showsGap classify
  cases synced : a.track.synced with
  | false => simp
  | true =>
    have le := near synced
    by_cases same : sequence = a.track.expected
    · simp [same]
    · have apart : (sequence - a.track.expected).toNat ≠ 0 := fun h => same (distance_eq_zero.mp h)
      simp only [Bool.not_true, Bool.false_eq_true, if_false, if_neg apart, if_pos le]
      exact .inl ⟨by simpa using same, trivial⟩

theorem classify_ne_stale : classify a.track sequence ≠ .stale := by
  obtain ⟨-, h⟩ | ⟨-, h | h⟩ := classify_near near <;> rw [h] <;> nofun

/-- Step 4 of R28, in the words of R24 and R25. -/
theorem State.takeGap_classify (s : State) :
    s.takeGap a.route (classify a.track sequence) =
      if a.showsGap sequence then
        a.route.range.foldl State.abandonRunning
          ((s.hand a.route.base (.gap (sequence - a.track.expected).toNat)).raise .gaps)
      else s := by
  obtain ⟨gap, h⟩ | ⟨noGap, h | h⟩ := classify_near near
  · rw [if_pos gap, h]
    rfl
  · rw [noGap, h]
    rfl
  · rw [noGap, h]
    rfl

end

/-! ### The steps before the samples, together -/

section
variable (s : State) (a : ActiveRoute) (sequence : Byte)

theorem routeSide_resumeRoute : RouteSide a.route s (s.resumeRoute a) := by
  unfold State.resumeRoute
  split
  · exact (routeSide_modTrack s _ _).trans (channelSide_resumes _ _).routeSide
  · exact RouteSide.refl s

theorem State.resumeRoute_get {k : GlobalCounter} (created : k ≠ .recordsCreated) (held : k ≠ .heldDiscards) :
    (s.resumeRoute a).counters.get k = s.counters.get k := by
  unfold State.resumeRoute
  split
  · exact (channelSide_resumes _ _).counts k created held
  · rfl

theorem routeSide_takeGap (r : Route) (cls : FrameClass) : RouteSide r s (s.takeGap r cls) := by
  unfold State.takeGap
  split
  · exact ((channelSide_hand s _ _).routeSide.trans (routeSide_raise _ _)).trans
      (channelSide_abandonRange _ r).routeSide
  all_goals exact RouteSide.refl s

theorem routeSide_beforeLanes : RouteSide a.route s (s.beforeLanes a sequence) :=
  (((routeSide_modTrack s _ _).trans (routeSide_raise _ _)).trans (routeSide_resumeRoute _ a)).trans
    (routeSide_takeGap _ _ _)

/-- Of the counters, a taken frame raises its own, and that of gaps where it shows one (R25, R28). -/
theorem State.beforeLanes_get
    (near : a.track.synced = true → (sequence - a.track.expected).toNat ≤ 127) {k : GlobalCounter}
    (created : k ≠ .recordsCreated) (held : k ≠ .heldDiscards) :
    (s.beforeLanes a sequence).counters.get k =
      if k = .inletTaken ∨ k = .gaps ∧ a.showsGap sequence = true then satAdd (s.counters.get k) 1
      else s.counters.get k := by
  have tracked : ((s.trackFrame a.route sequence).resumeRoute a).counters.get k =
      if k = .inletTaken then satAdd (s.counters.get k) 1 else s.counters.get k :=
    (State.resumeRoute_get _ a created held).trans (State.get_raise _ _ _)
  rw [State.beforeLanes, State.takeGap_classify near]
  by_cases gap : a.showsGap sequence = true
  · rw [if_pos gap, (channelSide_abandonRange _ a.route).counts k created held, State.get_raise,
      (handsOnly_hand _ _ _).counts k created held, tracked]
    by_cases isGap : k = .gaps
    · simp [isGap, gap]
    · simp [isGap]
  · rw [if_neg gap, tracked]
    simp [gap]

end

/-! ### The samples, the lane counts and the mirror copy (R27, R33) -/

theorem routeSide_lanesTaken (s : State) (r : Route) (samples : List Sample) :
    RouteSide r s (s.lanesTaken r samples) := by
  rw [State.lanesTaken_eq]
  exact (channelSide_lanes s r samples).routeSide

theorem State.lanesTaken_get (s : State) (r : Route) (samples : List Sample) {k : GlobalCounter}
    (created : k ≠ .recordsCreated) (held : k ≠ .heldDiscards) :
    (s.lanesTaken r samples).counters.get k = s.counters.get k := by
  rw [State.lanesTaken_eq]
  exact (channelSide_lanes s r samples).counts k created held

/-- `t` is `s` but for the link and the global counters. -/
structure TailSide (s t : State) : Prop where
  power : t.power = s.power
  time : t.time = s.time
  inlet : t.inlet = s.inlet
  channels : t.channels = s.channels
  groups : t.groups = s.groups
  profiles : t.profiles = s.profiles
  events : t.events = s.events
  mgmt : t.mgmt = s.mgmt
  alert : t.alert = s.alert
  windows : t.counters.windows = s.counters.windows
  pending : t.pending = s.pending

theorem TailSide.refl (s : State) : TailSide s s := ⟨rfl, rfl, rfl, rfl, rfl, rfl, rfl, rfl, rfl, rfl, rfl⟩

theorem TailSide.trans {s t u : State} (h : TailSide s t) (k : TailSide t u) : TailSide s u where
  power := k.power.trans h.power
  time := k.time.trans h.time
  inlet := k.inlet.trans h.inlet
  channels := k.channels.trans h.channels
  groups := k.groups.trans h.groups
  profiles := k.profiles.trans h.profiles
  events := k.events.trans h.events
  mgmt := k.mgmt.trans h.mgmt
  alert := k.alert.trans h.alert
  windows := k.windows.trans h.windows
  pending := k.pending.trans h.pending

theorem tailSide_raise (s : State) (k : GlobalCounter) : TailSide s (s.raise k) :=
  ⟨rfl, rfl, rfl, rfl, rfl, rfl, rfl, rfl, rfl, rfl, rfl⟩

theorem tailSide_modLink (s : State) (f : Link → Link) : TailSide s (s.modLink f) :=
  ⟨rfl, rfl, rfl, rfl, rfl, rfl, rfl, rfl, rfl, rfl, rfl⟩

/-- The frame has another number of lanes than its route, and that is counted (R27). -/
def State.countLanes (s : State) (r : Route) (m : SampleFrame) : State :=
  if m.samples.length = r.lanes then s else s.raise .laneMismatches

/-- The frame of a mirrored route is copied (R33). -/
def State.copyFrame (s : State) (r : Route) (m : SampleFrame) : State := if r.mirror then s.offerMirror m else s

/-- The copy of a frame of `r` finds the link UP and a place in the Mirror Buffer (R33). -/
def Link.takesCopy (l : Link) (r : Route) : Bool := r.mirror && decide (l.state = .up ∧ l.mirror.length < 2)

theorem Link.takesCopy_iff (l : Link) (r : Route) :
    l.takesCopy r = true ↔ r.mirror = true ∧ l.state = .up ∧ l.mirror.length < 2 := by
  rw [Link.takesCopy, Bool.and_eq_true, decide_eq_true_eq]

section
variable (s : State) (r : Route) (m : SampleFrame)

theorem tailSide_countLanes : TailSide s (s.countLanes r m) := by
  unfold State.countLanes
  split
  · exact TailSide.refl s
  · exact tailSide_raise s _

theorem State.countLanes_link : (s.countLanes r m).link = s.link := by
  unfold State.countLanes
  split <;> rfl

theorem State.countLanes_get (k : GlobalCounter) :
    (s.countLanes r m).counters.get k =
      if k = .laneMismatches ∧ m.samples.length ≠ r.lanes then satAdd (s.counters.get k) 1 else s.counters.get k := by
  unfold State.countLanes
  by_cases same : m.samples.length = r.lanes
  · rw [if_pos same, if_neg fun h => h.2 same]
  · rw [if_neg same, State.get_raise]
    simp only [same, ne_eq, not_false_eq_true, and_true]

/-- The three things that can become of the copy (R33). -/
theorem State.copyFrame_cases :
    (s.link.takesCopy r = true ∧ s.copyFrame r m = s.modLink fun l => { l with mirror := l.mirror ++ [m] }) ∨
    (s.link.takesCopy r = false ∧ r.mirror = true ∧ s.copyFrame r m = s.raise .mirrorDiscards) ∨
    (s.link.takesCopy r = false ∧ r.mirror = false ∧ s.copyFrame r m = s) := by
  unfold State.copyFrame State.offerMirror Link.takesCopy
  cases r.mirror with
  | false => exact .inr (.inr ⟨rfl, rfl, rfl⟩)
  | true =>
    by_cases place : s.link.state = .up ∧ s.link.mirror.length < 2
    · exact .inl ⟨decide_eq_true place, if_pos place⟩
    · exact .inr (.inl ⟨decide_eq_false place, rfl, if_neg place⟩)

theorem tailSide_copyFrame : TailSide s (s.copyFrame r m) := by
  obtain ⟨-, h⟩ | ⟨-, -, h⟩ | ⟨-, -, h⟩ := s.copyFrame_cases r m <;> rw [h]
  · exact tailSide_modLink s _
  · exact tailSide_raise s _
  · exact TailSide.refl s

theorem State.copyFrame_link :
    (s.copyFrame r m).link =
      { s.link with mirror := if s.link.takesCopy r then s.link.mirror ++ [m] else s.link.mirror } := by
  obtain ⟨copy, h⟩ | ⟨copy, -, h⟩ | ⟨copy, -, h⟩ := s.copyFrame_cases r m <;> rw [h, copy] <;> rfl

theorem State.copyFrame_get (k : GlobalCounter) :
    (s.copyFrame r m).counters.get k =
      if k = .mirrorDiscards ∧ r.mirror = true ∧ s.link.takesCopy r = false then satAdd (s.counters.get k) 1
      else s.counters.get k := by
  obtain ⟨copy, h⟩ | ⟨copy, mirror, h⟩ | ⟨copy, mirror, h⟩ := s.copyFrame_cases r m <;> rw [h, copy]
  · rw [if_neg (by simp)]
    rfl
  · rw [State.get_raise]
    simp only [mirror, and_true]
  · rw [if_neg (by simp [mirror])]

end

/-! ### The frame whole -/

/-- The part once the samples of a taken frame are delivered. -/
def State.delivered (s : State) (a : ActiveRoute) (m : SampleFrame) : State :=
  (s.beforeLanes a m.sequence).lanesTaken a.route m.samples

/-- A taken frame, in the words of the statement (R28). -/
theorem State.takeFrame_eq (s : State) (a : ActiveRoute) (m : SampleFrame) :
    s.takeFrame a (classify a.track m.sequence) m =
      ((s.delivered a m).countLanes a.route m).copyFrame a.route m := by
  rw [State.delivered, State.lanesTaken_eq]
  rfl

section
variable (s : State) (a : ActiveRoute) (m : SampleFrame)

theorem routeSide_delivered : RouteSide a.route s (s.delivered a m) :=
  (routeSide_beforeLanes s a m.sequence).trans (routeSide_lanesTaken _ _ _)

theorem tailSide_takeFrame : TailSide (s.delivered a m) (s.takeFrame a (classify a.track m.sequence) m) := by
  rw [State.takeFrame_eq]
  exact (tailSide_countLanes _ _ _).trans (tailSide_copyFrame _ _ _)

theorem routeSide_takeFrame_others {c : ChanNo} (h : a.route.covers c = false) :
    (s.takeFrame a (classify a.track m.sequence) m).chan c = s.chan c :=
  (State.chan_congr (tailSide_takeFrame s a m).channels c).trans ((routeSide_delivered s a m).others c h)

theorem State.countedDelivered_link : ((s.delivered a m).countLanes a.route m).link = s.link :=
  (State.countLanes_link _ _ _).trans (routeSide_delivered s a m).link

theorem State.takeFrame_link :
    (s.takeFrame a (classify a.track m.sequence) m).link =
      { s.link with mirror := if s.link.takesCopy a.route then s.link.mirror ++ [m] else s.link.mirror } := by
  rw [State.takeFrame_eq, State.copyFrame_link, State.countedDelivered_link]

/-- The global counters that a taken frame raises, those of record entry apart. -/
def State.raisedBy (s : State) (a : ActiveRoute) (m : SampleFrame) (k : GlobalCounter) : Bool :=
  match k with
  | .inletTaken => true
  | .gaps => a.showsGap m.sequence
  | .laneMismatches => m.samples.length != a.route.lanes
  | .mirrorDiscards => a.route.mirror && !s.link.takesCopy a.route
  | _ => false

/-- Every global counter but those of record entry, after a taken frame. -/
theorem State.takeFrame_get (near : a.track.synced = true → (m.sequence - a.track.expected).toNat ≤ 127)
    {k : GlobalCounter} (created : k ≠ .recordsCreated) (held : k ≠ .heldDiscards) :
    (s.takeFrame a (classify a.track m.sequence) m).counters.get k =
      if s.raisedBy a m k then satAdd (s.counters.get k) 1 else s.counters.get k := by
  have before : (s.delivered a m).counters.get k = _ :=
    (State.lanesTaken_get _ _ _ created held).trans (s.beforeLanes_get a m.sequence near created held)
  rw [State.takeFrame_eq, State.copyFrame_get, State.countLanes_get, before, State.countedDelivered_link]
  cases k with
  | gaps => cases gap : a.showsGap m.sequence <;> simp [State.raisedBy, gap]
  | _ => simp [State.raisedBy]

/-- The two counters of record entry stand as the samples left them. -/
theorem State.takeFrame_get_records {k : GlobalCounter} (h : k = .recordsCreated ∨ k = .heldDiscards) :
    (s.takeFrame a (classify a.track m.sequence) m).counters.get k = (s.delivered a m).counters.get k := by
  rw [State.takeFrame_eq, State.copyFrame_get, State.countLanes_get]
  obtain rfl | rfl := h <;> simp

end

/-! ### The command -/

theorem exec_sampleFrame_taken {s : State} {f : RawFrame} {m : SampleFrame} {a : ActiveRoute}
    (running : s.power = .running) (notDue : s.inlet.swap ≠ .due) (sound : checkSample f = .ok m)
    (found : s.inlet.lookup m.source = some a)
    (near : a.track.synced = true → (m.sequence - a.track.expected).toNat ≤ 127) :
    exec (.sampleFrame f) s =
      .next ((s.takeFrame a (classify a.track m.sequence) m).modInlet Inlet.endReception) := by
  rw [exec_sampleFrame_handled running notDue, State.handleInlet, sound]
  simp only [State.routeFrame, found]
  split
  · exact absurd (by assumption) (classify_ne_stale near)
  · rfl

/-- The steps before the samples, in the words of the statement (R24, R25, R28, R31). -/
theorem State.beforeLanes_eq (s : State) {a : ActiveRoute} {sequence : Byte}
    (near : a.track.synced = true → (sequence - a.track.expected).toNat ≤ 127) :
    s.beforeLanes a sequence =
      (let tracked := s.trackFrame a.route sequence
       let resumed :=
         if a.track.silent then
           a.route.range.foldl State.resumeEvent (tracked.modTrack a.route.source fun k => { k with silent := false })
         else tracked
       if a.track.synced = true ∧ sequence ≠ a.track.expected then
         a.route.range.foldl (fun u c => if (u.chan c).running then u.abandon c else u)
           ((resumed.hand a.route.base (.gap (sequence - a.track.expected).toNat)).raise .gaps)
       else resumed) := by
  rw [State.beforeLanes, State.takeGap_classify near]
  exact if_congr (a.showsGap_iff sequence) rfl rfl

/-- A due swap is taken before a frame is handled (R37). -/
theorem exec_sampleFrame_due {s : State} (f : RawFrame) (running : s.power = .running) (due : s.inlet.swap = .due) :
    ∃ u, exec .swapTaken s = .next u ∧ u.inlet.swap = .none ∧ u.power = .running ∧
      exec (.sampleFrame f) s = exec (.sampleFrame f) u := by
  have power : (s.takeSwap.complete .ok []).power = .running :=
    (State.complete_power _ _ _).trans ((channelSide_takeSwap s).power.trans running)
  have swap : (s.takeSwap.complete .ok []).inlet.swap = .none := by rw [State.complete_inlet, State.takeSwap_inlet]; rfl
  refine ⟨_, exec_swapTaken_due running due, swap, power, ?_⟩
  rw [exec_sampleFrame_handled power (by rw [swap]; nofun)]
  refine (next_whileOn running _).trans ?_
  rw [State.takeDueSwap, if_pos due]

/-- Settles O12: the frame's steps as the definitions chain them, what each raises, and what all leave alone. -/
theorem takenFrameTracksAndCounts : Obligations.TakenFrameTracksAndCounts := by
  refine ⟨fun s f => exec_sampleFrame_due f, fun s f m a running notDue sound found near => ?_⟩
  have source := Inlet.lookup_source found
  have side := routeSide_delivered s a m
  have tail := tailSide_takeFrame s a m
  have counters := fun k => State.takeFrame_get s a m near (k := k)
  have inlet := s.takeFrame_inlet a (classify a.track m.sequence) m
  refine ⟨_, exec_sampleFrame_taken running notDue sound found near, rfl, ?_, ?_, ?_, ?_, fun c => ?_,
    range_pairwise a.route, ⟨?_, ?_, ?_⟩, ⟨?_, ?_⟩, fun k hk => ?_, fun c => ?_, fun c outside => ?_, fun g => ?_,
    tail.power.trans side.power, tail.time.trans side.time, tail.profiles.trans side.profiles,
    tail.mgmt.trans side.mgmt, tail.pending.trans side.pending⟩
  · show (if _ = _ then _ else _) = _
    rw [inlet]
    rfl
  · refine (congrArg Inlet.shadow inlet).trans ?_
    rfl
  · refine (congrArg Inlet.active inlet).trans ?_
    rw [source]
    rfl
  · simp only [← s.beforeLanes_eq near]
    exact ⟨tail.channels, tail.groups, tail.events, tail.alert, tail.windows,
      State.takeFrame_get_records s a m (.inl rfl), State.takeFrame_get_records s a m (.inr rfl)⟩
  · rw [mem_range, Route.covers, Bool.and_eq_true, decide_eq_true_eq, decide_eq_true_eq]
  · exact counters .inletTaken nofun nofun
  · exact (counters .gaps nofun nofun).trans (if_congr (a.showsGap_iff _) rfl rfl)
  · refine (counters .laneMismatches nofun nofun).trans ?_
    by_cases same : m.samples.length = a.route.lanes <;> simp [State.raisedBy, same]
  · refine (State.takeFrame_link s a m).trans ?_
    rw [if_congr (s.link.takesCopy_iff a.route) rfl rfl]
  · refine (counters .mirrorDiscards nofun nofun).trans (if_congr ?_ rfl rfl)
    rw [← s.link.takesCopy_iff, State.raisedBy, Bool.and_eq_true, Bool.not_eq_true', Bool.not_eq_true]
  · cases k with
    | inletTaken | gaps | laneMismatches | mirrorDiscards | recordsCreated | heldDiscards => simp at hk
    | _ => exact counters _ nofun nofun
  · exact (congrArg Channel.config (State.chan_congr tail.channels c)).trans (side.config c)
  · exact routeSide_takeFrame_others s a m outside
  · refine Eq.trans ?_ (side.members g)
    rw [← tail.groups]
    rfl

end Sys2Proof.Machine
end

section
/-! Samples and windows (R42–R49): a sample that leaves the window open, and one that fills it. -/

namespace Sys2Proof.Machine

/-! ### Samples that leave the window open (R42–R46) -/

theorem ChanState.takesSamples_iff (x : ChanState) : x.takesSamples = true ↔ x ≠ .off ∧ x ≠ .silent := by
  cases x <;> simp [ChanState.takesSamples]

section
variable {s : State} {c : ChanNo} {x : Sample}

theorem State.windowWith_open {w : Window} (opened : (s.chan c).window.openWin = some w) :
    s.windowWith c x = w.accumulate x := by
  rw [State.windowWith, opened]

theorem State.windowWith_closed (closed : (s.chan c).window.openWin = none) :
    s.windowWith c x = Window.openWith (s.profileOf c).lengths[s.tierInUse c (s.profileOf c)] x := by
  rw [State.windowWith, closed]

/-- A channel in OFF or SILENT takes no sample (R42). -/
theorem State.deliverSample_of_not_taken (h : (s.chan c).run.state = .off ∨ (s.chan c).run.state = .silent) :
    s.deliverSample c x = s := by
  refine if_neg fun taken => ?_
  obtain ⟨notOff, notSilent⟩ := (ChanState.takesSamples_iff _).mp taken
  exact h.elim notOff notSilent

/-- A window still short of its latched length stays open with the sample in it (R43, R45). -/
theorem State.deliverSample_of_short {w : Window} (taken : (s.chan c).run.state.takesSamples = true)
    (holds : s.windowWith c x = w) (short : w.fill < w.latched) :
    s.deliverSample c x = s.setChan c { s.chan c with window := { (s.chan c).window with openWin := some w } } := by
  rw [State.deliverSample, if_pos taken]
  simp only [holds, if_pos short]
  rfl

end

/-- Settles O14, by the window that holds the sample: the open one, or the one that opens with it. -/
theorem sampleFillsWindow : Obligations.SampleFillsWindow := by
  intro s c x ch v
  refine ⟨State.deliverSample_of_not_taken, fun notOff notSilent => ?_⟩
  have taken := (ChanState.takesSamples_iff _).mpr ⟨notOff, notSilent⟩
  refine ⟨fun w opened short => ?_, fun closed => ?_⟩
  · exact State.deliverSample_of_short taken (State.windowWith_open opened) short
  · intro p tier long
    exact State.deliverSample_of_short taken (State.windowWith_closed closed) long

/-! ### Window counters -/

theorem CounterBank.modWindows_same (b : CounterBank) (c : ChanNo) (f : WindowCounts → WindowCounts) :
    (b.modWindows c f).windows[c] = f b.windows[c] := Vector.getElem_set_self _

theorem CounterBank.modWindows_other (b : CounterBank) {c d : ChanNo} (f : WindowCounts → WindowCounts) (h : d ≠ c) :
    (b.modWindows c f).windows[d] = b.windows[d] :=
  Vector.getElem_set_ne c.isLt d.isLt fun e => h (Fin.ext e.symm)

/-! ### Full windows, judged (R47–R49) -/

/-- The part once a full window of channel `c` has been judged: no window is open, the reject run is that of the
judgement, and the channel's window counts rise by it (R47–R49). -/
def State.judged (s : State) (c : ChanNo) (run : Nat → Nat) (count : WindowCounts → WindowCounts) : State :=
  ((s.modWindow c fun w => { w with openWin := none }).modRun c fun r =>
    { r with rejectRun := run r.rejectRun }).raiseWindows c count

section
variable (s : State) (c : ChanNo) (run : Nat → Nat) (count : WindowCounts → WindowCounts)

theorem State.chan_judged :
    (s.judged c run count).chan c =
      { s.chan c with window := { (s.chan c).window with openWin := none }
                      run := { (s.chan c).run with rejectRun := run (s.chan c).run.rejectRun } } := by
  rw [State.judged, State.chan_raiseWindows, State.chan_modRun_same, State.chan_modWindow_same]

theorem State.chan_judged_other {d : ChanNo} (h : d ≠ c) : (s.judged c run count).chan d = s.chan d := by
  rw [State.judged, State.chan_raiseWindows, State.chan_modRun_other _ _ h, State.chan_modWindow_other _ _ h]

theorem State.judged_windows : (s.judged c run count).counters.windows[c] = count s.counters.windows[c] :=
  CounterBank.modWindows_same s.counters c count

theorem State.judged_windows_other {d : ChanNo} (h : d ≠ c) :
    (s.judged c run count).counters.windows[d] = s.counters.windows[d] :=
  CounterBank.modWindows_other s.counters count h

end

/-- Overrange, or too wide a spread: the window is rejected, and Channel Logic takes its spread (R47, R48). -/
theorem State.closeWindow_rejected (s : State) (c : ChanNo) {w : Window}
    (bad : w.overrange = true ∨ (s.profileOf c).spreadLimit < w.spread) :
    s.closeWindow c w =
      (s.judged c (fun n => min (n + 1) 15) WindowCounts.reject).takeRejected c (s.profileOf c) w.spread := by
  refine if_pos ?_
  rw [Window.rejectedBy, Bool.or_eq_true, decide_eq_true_eq]
  exact bad

/-- Settles O15: the judged window's channel and counts, before Channel Logic takes the result. -/
theorem fullWindowRejected : Obligations.FullWindowRejected := by
  intro s c x w ch p taken full spread bad
  refine ⟨s.judged c (fun n => min (n + 1) 15) WindowCounts.reject, ?_, s.chan_judged c _ _, s.judged_windows c _ _,
    fun d hd => ⟨s.chan_judged_other c _ _ hd, s.judged_windows_other c _ _ hd⟩, rfl, rfl, rfl, rfl, rfl, rfl, rfl, rfl,
    rfl, rfl, rfl⟩
  exact (State.deliverSample_of_fullWith taken full).trans (s.closeWindow_rejected c bad)

end Sys2Proof.Machine
end

section
/-! Accepted windows (R49–R53, R56): rate, tier and group rate. -/

namespace Sys2Proof.Machine

/-! ### Rates and bands (R50, R51) -/

theorem absDiff_eq_natAbs (a b : Nat) : absDiff a b = ((a : Int) - b).natAbs := by
  unfold absDiff
  omega

/-- A rate lies in exactly one band of ordered breakpoints (R51). -/
theorem Profile.tierOf_bands (p : Profile) (rate : Nat) (h12 : p.b1 ≤ p.b2) (h23 : p.b2 ≤ p.b3) (h34 : p.b3 ≤ p.b4) :
    (p.tierOf rate = 0 ↔ rate < p.b1) ∧
    (p.tierOf rate = 1 ↔ p.b1 ≤ rate ∧ rate < p.b2) ∧
    (p.tierOf rate = 2 ↔ p.b2 ≤ rate ∧ rate < p.b3) ∧
    (p.tierOf rate = 3 ↔ p.b3 ≤ rate ∧ rate < p.b4) ∧
    (p.tierOf rate = 4 ↔ p.b4 ≤ rate) := by
  unfold Profile.tierOf
  split
  · grind
  · split
    · grind
    · split
      · grind
      · split
        · grind
        · grind

/-! ### The tier after an accepted window (R44, R51–R53, R56) -/

section
variable (s : State) (c : ChanNo) (p : Profile) (rate : Nat)

theorem State.tierInUse_fixed (fixed : p.fixedTier = true) : s.tierInUse c p = 0 := if_pos fixed

theorem State.tierInUse_own (free : p.fixedTier = false) (alone : (s.chan c).config.group = none) :
    s.tierInUse c p = (s.chan c).window.tier := by
  simp [State.tierInUse, free, alone]

theorem State.tierInUse_group {g : Fin 8} (free : p.fixedTier = false) (pooled : (s.chan c).config.group = some g) :
    s.tierInUse c p = s.groups[g].tier := by
  simp [State.tierInUse, free, pooled]

theorem State.selectTier_fixed (fixed : p.fixedTier = true) : s.selectTier c p rate = s := if_pos fixed

theorem State.selectTier_own (free : p.fixedTier = false) (alone : (s.chan c).config.group = none) :
    s.selectTier c p rate = s.modWindow c fun w => { w with tier := p.tierOf rate } := by
  simp [State.selectTier, free, alone]

theorem State.selectTier_group {g : Fin 8} (free : p.fixedTier = false) (pooled : (s.chan c).config.group = some g) :
    s.selectTier c p rate =
      { s with groups := s.groups.set g { s.groups[g] with tier := p.tierOf (s.groupRate g) } } := by
  simp [State.selectTier, free, pooled]

/-- Tier selection writes the channel's own tier and the Group Table; with `channelSide_selectTier`, nothing else
(R51–R53). -/
theorem State.selectTier_frame :
    let u := s.selectTier c p rate
    (∃ tier, u.chan c = { s.chan c with window := { (s.chan c).window with tier := tier } }) ∧
    u.counters = s.counters ∧ u.events = s.events ∧ u.alert = s.alert := by
  unfold State.selectTier
  split
  · exact ⟨⟨_, rfl⟩, rfl, rfl, rfl⟩
  · split
    · exact ⟨⟨_, State.chan_modWindow_same _ _ _⟩, rfl, rfl, rfl⟩
    · exact ⟨⟨_, rfl⟩, rfl, rfl, rfl⟩

theorem State.selectTier_config : ((s.selectTier c p rate).chan c).config = (s.chan c).config :=
  (channelSide_selectTier (P := (· = c)) s c rfl p rate).config c

end

/-- The group rate adds up what each channel shares: channel `c` the rate it has just stored, any other its last rate
(R53). -/
theorem State.groupRate_eq_pooledRate {s t : State} {c : ChanNo} {rate : Nat}
    (config : (t.chan c).config = (s.chan c).config) (stored : (t.chan c).window.lastRate = rate)
    (others : ∀ d ≠ c, t.chan d = s.chan d) (g : Fin 8) : t.groupRate g = s.pooledRate g c rate := by
  have share : ∀ d, (t.chan d).groupShare g =
      if (s.chan d).config.group = some g ∧ (s.chan d).config.mode ≠ .off then
        if d = c then rate else (s.chan d).window.lastRate
      else 0 := fun d => by
    by_cases hd : d = c
    · rw [hd, Channel.groupShare, config, stored, if_pos rfl]
    · rw [others d hd, Channel.groupShare, if_neg hd]
  rw [State.groupRate, State.pooledRate, State.channels_toList, List.map_map]
  exact congrArg (fun shares => min (List.sum shares) 4095) (List.map_congr_left fun d _ => share d)

/-! ### Accepted windows (R47, R49, R50) -/

/-- The part once an accepted window of channel `c` is judged and its rate and mean are stored (R49, R50). -/
def State.measured (s : State) (c : ChanNo) (rate mean : Nat) : State :=
  (s.judged c (fun _ => 0) WindowCounts.accept).modWindow c fun w =>
    { w with lastRate := rate, lastMean := some mean }

section
variable (s : State) (c : ChanNo) (rate mean : Nat)

theorem State.chan_measured :
    (s.measured c rate mean).chan c =
      { s.chan c with window := { (s.chan c).window with openWin := none, lastRate := rate, lastMean := some mean }
                      run := { (s.chan c).run with rejectRun := 0 } } := by
  rw [State.measured, State.chan_modWindow_same, State.chan_judged]

theorem State.chan_measured_other {d : ChanNo} (h : d ≠ c) : (s.measured c rate mean).chan d = s.chan d := by
  rw [State.measured, State.chan_modWindow_other _ _ h, State.chan_judged_other _ _ _ _ h]

theorem State.measured_groupRate (g : Fin 8) : (s.measured c rate mean).groupRate g = s.pooledRate g c rate :=
  State.groupRate_eq_pooledRate (by rw [State.chan_measured]) (by rw [State.chan_measured])
    (fun _ hd => s.chan_measured_other c rate mean hd) g

end

/-- In range and within the spread limit: the window is accepted. Rate and mean are stored, the tier follows, and Channel
Logic takes the mean with the tier then in use (R47, R49–R53, R56). -/
theorem State.closeWindow_accepted (s : State) (c : ChanNo) {w : Window} (inRange : w.overrange = false)
    (narrow : w.spread ≤ (s.profileOf c).spreadLimit) :
    let p := s.profileOf c
    let rate := rateOf (s.chan c).window.lastMean w.mean
    let u := (s.measured c rate w.mean).selectTier c p rate
    s.closeWindow c w = u.takeAccepted c p w.mean (u.tierInUse c p) := by
  have accepted : ¬ w.rejectedBy (s.profileOf c) = true := by
    simpa [Window.rejectedBy, inRange] using narrow
  refine (if_neg accepted).trans ?_
  rw [State.acceptWindow, State.chan_modWindow_same]
  rfl

section
variable (s : State) (c : ChanNo) (p : Profile) (rate mean : Nat)

/-- Whatever the tier: channel, counts and frame of an accepted window before Channel Logic takes the result. -/
theorem State.selectTier_measured_frame :
    let u := (s.measured c rate mean).selectTier c p rate
    (∃ tier, u.chan c =
      { s.chan c with
        window := { openWin := none, tier := tier, lastRate := rate, lastMean := some mean }
        run := { (s.chan c).run with rejectRun := 0 } }) ∧
    u.counters.windows[c] = s.counters.windows[c].accept ∧
    (∀ d ≠ c, u.chan d = s.chan d ∧ u.counters.windows[d] = s.counters.windows[d]) ∧
    u.counters.global = s.counters.global ∧ u.power = s.power ∧ u.time = s.time ∧ u.inlet = s.inlet ∧
    u.profiles = s.profiles ∧ u.events = s.events ∧ u.link = s.link ∧ u.mgmt = s.mgmt ∧ u.alert = s.alert ∧
    u.pending = s.pending := by
  intro u
  obtain ⟨⟨tier, channel⟩, counters, events, alert⟩ := (s.measured c rate mean).selectTier_frame c p rate
  have side := channelSide_selectTier (P := (· = c)) (s.measured c rate mean) c rfl p rate
  refine ⟨⟨tier, ?_⟩, ?_, fun d hd => ⟨?_, ?_⟩, (congrArg CounterBank.global counters :), side.power, side.time,
    side.inlet, side.profiles, events, side.link, side.mgmt, alert, side.pending⟩
  · rw [channel, State.chan_measured]
  · rw [counters]
    exact s.judged_windows c (fun _ => 0) _
  · rw [side.others d hd, State.chan_measured_other _ _ _ _ hd]
  · rw [counters]
    exact s.judged_windows_other c (fun _ => 0) _ hd

/-- A fixed tier stays as it is, and tier 0 is in use (R56). -/
theorem State.selectTier_measured_fixed (fixed : p.fixedTier = true) :
    let u := (s.measured c rate mean).selectTier c p rate
    u.tierInUse c p = 0 ∧ (u.chan c).window.tier = (s.chan c).window.tier ∧ u.groups = s.groups := by
  rw [State.selectTier_fixed _ c p rate fixed]
  exact ⟨State.tierInUse_fixed _ c p fixed, by rw [State.chan_measured], rfl⟩

/-- A channel outside the groups takes the tier of its own rate (R51, R52). -/
theorem State.selectTier_measured_own (free : p.fixedTier = false) (alone : (s.chan c).config.group = none) :
    let u := (s.measured c rate mean).selectTier c p rate
    u.tierInUse c p = p.tierOf rate ∧ (u.chan c).window.tier = p.tierOf rate ∧ u.groups = s.groups := by
  intro u
  have before : ((s.measured c rate mean).chan c).config.group = none := by rw [State.chan_measured]; exact alone
  have after : (u.chan c).config.group = none := by rw [State.selectTier_config, before]
  have chosen : u = (s.measured c rate mean).modWindow c fun w => { w with tier := p.tierOf rate } :=
    State.selectTier_own _ c p rate free before
  have tier : (u.chan c).window.tier = p.tierOf rate := by rw [chosen, State.chan_modWindow_same]
  exact ⟨(u.tierInUse_own c p free after).trans tier, tier, by rw [chosen]; rfl⟩

/-- A channel of a group leaves its own tier; the group takes the tier of the pooled rate (R51, R53). -/
theorem State.selectTier_measured_group {g : Fin 8} (free : p.fixedTier = false)
    (pooled : (s.chan c).config.group = some g) :
    let u := (s.measured c rate mean).selectTier c p rate
    u.tierInUse c p = p.tierOf (s.pooledRate g c rate) ∧ (u.chan c).window.tier = (s.chan c).window.tier ∧
    u.groups[g] = { s.groups[g] with tier := p.tierOf (s.pooledRate g c rate) } ∧
    ∀ h : Fin 8, h ≠ g → u.groups[h] = s.groups[h] := by
  intro u
  have before : ((s.measured c rate mean).chan c).config.group = some g := by rw [State.chan_measured]; exact pooled
  have after : (u.chan c).config.group = some g := by rw [State.selectTier_config, before]
  have chosen : u = { s.measured c rate mean with
      groups := s.groups.set g { s.groups[g] with tier := p.tierOf (s.pooledRate g c rate) } } := by
    rw [← s.measured_groupRate c rate mean g]
    exact State.selectTier_group _ c p rate free before
  have group : u.groups[g] = { s.groups[g] with tier := p.tierOf (s.pooledRate g c rate) } := by
    rw [chosen]
    exact Vector.getElem_set_self g.isLt
  refine ⟨(u.tierInUse_group c p free after).trans (congrArg Group.tier group), ?_, group, fun h hh => ?_⟩
  · rw [chosen]
    exact congrArg (·.window.tier) (s.chan_measured c rate mean)
  · rw [chosen]
    exact Vector.getElem_set_ne g.isLt h.isLt fun e => hh (Fin.ext e.symm)

end

/-- Settles O16: the bands, and the accepted window by fixed tier, own rate or pooled rate. -/
theorem fullWindowAccepted : Obligations.FullWindowAccepted := by
  refine ⟨Profile.tierOf_bands, fun s c x w => ?_⟩
  intro ch p taken full inRange narrow mean rate
  have rateIs : rateOf ch.window.lastMean mean = rate := by
    simp only [rate]
    cases ch.window.lastMean with
    | none => rfl
    | some m => exact absDiff_eq_natAbs mean m
  obtain ⟨⟨tier, channel⟩, counted, frame⟩ := s.selectTier_measured_frame c p rate mean
  refine ⟨(s.measured c rate mean).selectTier c p rate, _, ?_, by rw [channel], by rw [channel], by rw [channel],
    by rw [channel], by rw [channel], s.selectTier_measured_fixed c p rate mean, fun free alone => ?_,
    fun g free pooled => ?_, counted, frame⟩
  · rw [State.deliverSample_of_fullWith taken full, s.closeWindow_accepted c inRange narrow, ← rateIs]
    rfl
  · obtain ⟨inUse, own, groups⟩ := s.selectTier_measured_own c p rate mean free alone
    exact ⟨inUse, own.trans inUse.symm, groups⟩
  · obtain ⟨inUse, own, group, others⟩ := s.selectTier_measured_group c p rate mean free pooled
    exact ⟨inUse, own, by rw [group, inUse], others⟩

end Sys2Proof.Machine
end

section
/-! The expiries of a channel's timers (R57, R67, R79, R97). -/

namespace Sys2Proof.Machine

/-! ### Causes reported (R104, R178) -/

theorem Alert.report_causes (a : Alert) (x : Cause) : (a.report x).causes = a.causes.insert x := by
  unfold Alert.report
  dsimp only
  split <;> rfl

theorem CauseSet.has_insert (causes : CauseSet) (x y : Cause) :
    (causes.insert x).has y = (decide (y = x) || causes.has y) := by
  cases x <;> cases y <;> rfl

theorem Alert.report_has (a : Alert) (x : Cause) : (a.report x).causes.has x = true := by
  rw [Alert.report_causes, CauseSet.has_insert, decide_eq_true rfl, Bool.true_or]

/-- A report takes no cause out of the set (R178). -/
theorem Alert.report_keeps {a : Alert} {y : Cause} (h : a.causes.has y = true) (x : Cause) :
    (a.report x).causes.has y = true := by
  rw [Alert.report_causes, CauseSet.has_insert, h, Bool.or_true]

/-- A record of an urgent kind has its cause in the set once it is handed over (R104). -/
theorem State.hand_has {k : RecordKind} {x : Cause} (urgent : k.urgent = some x) (s : State) (c : ChanNo) :
    (s.hand c k).alert.causes.has x = true := by
  unfold State.hand
  rw [urgent]
  exact (handsOnly_enterRecord _ _).alert (·.causes.has x = true) (fun _ y h => Alert.report_keeps h y)
    (Alert.report_has _ x)

/-! ### Max-active expiries (R79) -/

section
variable (s : State) (c : ChanNo)

theorem State.chan_stuckExpiry :
    (s.stuckExpiry c).chan c =
      { s.chan c with
        window := { (s.chan c).window with openWin := none, lastMean := none, lastRate := 0 }
        run := { (s.chan c).run with state := .settling, engaged := false, confirm := 0, rejectRun := 0,
                                     baseline := none, cause := .stuck, maxActive := none, quiet := none } } := by
  rw [State.stuckExpiry, State.chan_enterSettling, State.chan_endEngagement, State.chan_hand, State.chan_abandon]
  split <;> rfl

/-- STUCK is reported with its record, and what follows takes no cause back (R79, R104). -/
theorem State.stuckExpiry_reports : (s.stuckExpiry c).alert.causes.has .stuck = true :=
  have handed := State.hand_has (k := .stuck _) rfl (s.abandon c) c
  have side := (channelSide_endEngagement (P := (· = c)) _ c rfl .stuck).trans
    (channelSide_enterSettling (P := (· = c)) _ c rfl .stuck)
  side.alert (·.causes.has .stuck = true) (fun _ y h => Alert.report_keeps h y) handed

variable {s}

/-- A quiet timer's expiry is taken when the timer has run out, and at no other time (R97). -/
theorem exec_quietTimerExpiry (running : s.power = .running) :
    exec (.quietTimerExpiry c) s = .next (if (s.chan c).run.quiet = some 0 then s.driftStep c else s) := by
  refine (next_whileOn running _).trans ?_
  simp only [timerExpired, beq_iff_eq]

/-- A max-active timer's expiry is taken when the timer of an engaged channel has run out, and at no other time (R79). -/
theorem exec_maxActiveExpiry (running : s.power = .running) :
    exec (.maxActiveExpiry c) s =
      .next (if (s.chan c).run.engaged = true ∧ (s.chan c).run.maxActive = some 0 then s.stuckExpiry c else s) := by
  refine (next_whileOn running _).trans ?_
  simp only [timerExpired, Bool.and_eq_true, beq_iff_eq]

end

/-- Settles O23, by whether the timer has run out. -/
theorem channelTimerExpiries : Obligations.ChannelTimerExpiries := by
  intro s c running ch
  rw [exec_quietTimerExpiry c running, exec_maxActiveExpiry c running]
  refine ⟨fun due => by rw [if_pos due], fun notDue => by rw [if_neg notDue], fun engaged due => ?_, fun notDue => ?_⟩
  · rw [if_pos ⟨engaged, due⟩]
    have side := channelSide_stuckExpiry (P := (· = c)) s c rfl
    obtain ⟨-, counted, otherCounts⟩ := s.countedAbandoned_stuck c
    exact ⟨_, rfl, State.sameRecords_refl _, s.chan_stuckExpiry c, s.stuckExpiry_reports c, counted,
      fun d hd => ⟨side.others d hd, otherCounts d hd⟩, side.power, side.time, side.inlet,
      (s.sameElsewhere_stuckExpiry c).groups, side.profiles, side.link, side.mgmt, side.pending⟩
  · rw [if_neg fun ⟨engaged, due⟩ => notDue.elim (ne_false_of_eq_true engaged) (absurd due)]

end Sys2Proof.Machine
end

section
/-! Channel Logic takes a window result (R64, R69–R78, R91, R92): the state that an accepted and a rejected result lead
to, the records they hand over, and the VALUE published. -/

namespace Sys2Proof.Machine

/-! ### Where a result leaves its channel -/

/-- The quiet timer's time at an entry into IDLE (R77, R96). -/
def State.quietTime (s : State) (c : ChanNo) : Nat := s.profiles[(s.chan c).config.profile].driftInterval * 100

/-- In `t`, the state part of channel `c` is changed by `change`, the channel is otherwise what it is in `s`, and
records of the given kinds have been handed over, in order. -/
def State.movesTo (s t : State) (c : ChanNo) (change : RunPart → RunPart) (kinds : List RecordKind) : Prop :=
  t.chan c = { s.chan c with run := change (s.chan c).run } ∧ t.sameRecords (s.handAll c kinds)

section
variable {s t : State} {c : ChanNo}

theorem State.movesTo.chan {change : RunPart → RunPart} {kinds : List RecordKind} (h : s.movesTo t c change kinds) :
    t.chan c = { s.chan c with run := change (s.chan c).run } := h.1

/-- What follows a record handed over. -/
theorem State.movesTo.after_hand {k : RecordKind} {change : RunPart → RunPart} {kinds : List RecordKind}
    (h : (s.hand c k).movesTo t c change kinds) : s.movesTo t c change (k :: kinds) := by
  obtain ⟨chan, records⟩ := h
  rw [State.chan_hand] at chan
  exact ⟨chan, records⟩

/-- A change of the state part hands over no record. -/
theorem State.movesTo_modRun (s : State) (c : ChanNo) (change : RunPart → RunPart) :
    s.movesTo (s.modRun c change) c change [] := ⟨s.chan_modRun_same c change, s.sameRecords_refl⟩

theorem State.quietTime_hand (s : State) (c : ChanNo) (k : RecordKind) : (s.hand c k).quietTime c = s.quietTime c := by
  simp only [State.quietTime, State.chan_hand, State.hand_profiles]

theorem State.quietTime_modRun (s : State) (c : ChanNo) (f : RunPart → RunPart) :
    (s.modRun c f).quietTime c = s.quietTime c := by
  simp only [State.quietTime, State.chan_modRun_same, State.modRun_profiles]

section
variable {quiet : Nat} (time : s.quietTime c = quiet)
include time

/-- Entry into IDLE (R66, R77). -/
theorem State.movesTo_enterIdle :
    s.movesTo (s.enterIdle c) c (fun r => { r with state := .idle, confirm := 0, quiet := some quiet }) [] := by
  subst time
  exact s.movesTo_modRun c _

/-- A capture, and the entry into IDLE that follows it (R70, R91). -/
theorem State.movesTo_captured (mean : Nat) {cause : CaptureCause} (why : (s.chan c).run.cause = cause) :
    s.movesTo ((s.capture c mean).enterIdle c) c
      (fun r => { r with state := .idle, baseline := some mean, confirm := 0, quiet := some quiet })
      [.rebase mean cause] := by
  subst why
  have handed : (s.capture c mean).sameRecords (s.hand c (.rebase mean (s.chan c).run.cause)) :=
    State.sameRecords_hand (State.sameRecords_modRun c s.sameRecords_refl _) c _
  refine ⟨?_, State.sameRecords_modRun c handed _⟩
  have captured : (s.capture c mean).quietTime c = quiet := by
    rw [State.capture, State.quietTime_hand, State.quietTime_modRun, time]
  rw [(State.movesTo_enterIdle captured).chan, State.capture, State.chan_hand, State.chan_modRun_same]

/-- RELEASE(NORMAL), and the entry into IDLE that follows it (R73). -/
theorem State.movesTo_releaseNormal (mean : Nat) :
    s.movesTo (s.releaseNormal c mean) c
      (fun r => { r with state := .idle, engaged := false, maxActive := none, confirm := 0, quiet := some quiet })
      [.release .normal (some mean)] := by
  refine ⟨?_, State.sameRecords_modRun c (State.sameRecords_modRun c (State.sameRecords_refl _) _) _⟩
  rw [State.releaseNormal, (State.movesTo_enterIdle (by rw [State.quietTime_modRun, State.quietTime_hand, time])).chan,
    State.chan_modRun_same, State.chan_hand]

end

section
variable (s : State) (c : ChanNo) {p : Profile} {mean b n : Nat}

/-- The confirm count is reached: ONSET (R71, R72, R78). -/
theorem State.movesTo_confirmed (reached : p.confirm ≤ n) :
    s.movesTo (s.confirmOnset c p mean b n) c
      (fun r => { r with
        state := .active, engaged := true, confirm := 0, quiet := none
        maxActive := if p.maxActive = 0 then none else some (p.maxActive * 100) })
      [.onset mean b] := by
  rw [State.confirmOnset, if_pos reached]
  exact (State.movesTo_modRun (s.hand c _) c _).after_hand

/-- The confirm count is not yet reached: PENDING (R71, R72). -/
theorem State.movesTo_unconfirmed (short : n < p.confirm) :
    s.movesTo (s.confirmOnset c p mean b n) c
      (fun r => { r with state := .pending, confirm := n, quiet := none }) [] := by
  rw [State.confirmOnset, if_neg (Nat.not_le.mpr short)]
  exact s.movesTo_modRun c _

end

end

/-! ### Accepted results, state by state (R70–R73) -/

section
variable {s : State} {c : ChanNo} {p : Profile} {mean b n : Nat}

theorem State.acceptedMove_settling (settling : (s.chan c).run.state = .settling) :
    s.acceptedMove c p mean = (s.capture c mean).enterIdle c := by
  simp only [State.acceptedMove, settling]

section
variable (base : (s.chan c).run.baseline = some b)
include base

/-- The `n`th window in a row at or beyond the onset threshold, in IDLE the first (R71, R72). -/
theorem State.acceptedMove_confirms
    (row : (s.chan c).run.state = .idle ∧ n = 1 ∨ (s.chan c).run.state = .pending ∧ n = (s.chan c).run.confirm + 1)
    (high : p.onset ≤ deviation (s.chan c).config.polarity b mean) :
    s.acceptedMove c p mean = s.confirmOnset c p mean b n := by
  obtain ⟨idle, rfl⟩ | ⟨pending, rfl⟩ := row
  · simp only [State.acceptedMove, idle, base, if_pos high]
  · simp only [State.acceptedMove, pending, base, if_pos high]

theorem State.acceptedMove_idle_low (idle : (s.chan c).run.state = .idle)
    (low : deviation (s.chan c).config.polarity b mean < p.onset) : s.acceptedMove c p mean = s := by
  simp only [State.acceptedMove, idle, base, if_neg (Int.not_le.mpr low)]

theorem State.acceptedMove_pending_low (pending : (s.chan c).run.state = .pending)
    (low : deviation (s.chan c).config.polarity b mean < p.onset) : s.acceptedMove c p mean = s.enterIdle c := by
  simp only [State.acceptedMove, pending, base, if_neg (Int.not_le.mpr low)]

theorem State.acceptedMove_active_high (active : (s.chan c).run.state = .active)
    (high : p.release ≤ deviation (s.chan c).config.polarity b mean) : s.acceptedMove c p mean = s := by
  simp only [State.acceptedMove, active, base, if_neg (Int.not_lt.mpr high)]

theorem State.acceptedMove_active_low (active : (s.chan c).run.state = .active)
    (low : deviation (s.chan c).config.polarity b mean < p.release) :
    s.acceptedMove c p mean = s.releaseNormal c mean := by
  simp only [State.acceptedMove, active, base, if_pos low]

end

/-! ### The first accepted result in NOISY, case by case (R75) -/

section
variable (noisy : (s.chan c).run.state = .noisy)
include noisy

theorem State.acceptedMove_noisy_captures (base : (s.chan c).run.baseline = none) :
    s.acceptedMove c p mean = ((s.hand c (.clear mean)).capture c mean).enterIdle c := by
  simp only [State.acceptedMove, noisy, State.leaveNoisy, State.chan_hand, base]

variable (base : (s.chan c).run.baseline = some b)
include base

theorem State.acceptedMove_noisy_releases (engaged : (s.chan c).run.engaged = true)
    (low : deviation (s.chan c).config.polarity b mean < p.release) :
    s.acceptedMove c p mean = (s.hand c (.clear mean)).releaseNormal c mean := by
  simp only [State.acceptedMove, noisy, State.leaveNoisy, State.chan_hand, base, if_pos engaged, if_pos low]

theorem State.acceptedMove_noisy_resumes (engaged : (s.chan c).run.engaged = true)
    (high : p.release ≤ deviation (s.chan c).config.polarity b mean) :
    s.acceptedMove c p mean = (s.hand c (.clear mean)).modRun c fun r => { r with state := .active } := by
  simp only [State.acceptedMove, noisy, State.leaveNoisy, State.chan_hand, base, if_pos engaged,
    if_neg (Int.not_lt.mpr high)]

theorem State.acceptedMove_noisy_confirms (unengaged : (s.chan c).run.engaged = false)
    (high : p.onset ≤ deviation (s.chan c).config.polarity b mean) :
    s.acceptedMove c p mean = (s.hand c (.clear mean)).confirmOnset c p mean b 1 := by
  simp only [State.acceptedMove, noisy, State.leaveNoisy, State.chan_hand, base, unengaged, Bool.false_eq_true,
    if_false, if_pos high]

theorem State.acceptedMove_noisy_idles (unengaged : (s.chan c).run.engaged = false)
    (low : deviation (s.chan c).config.polarity b mean < p.onset) :
    s.acceptedMove c p mean = (s.hand c (.clear mean)).enterIdle c := by
  simp only [State.acceptedMove, noisy, State.leaveNoisy, State.chan_hand, base, unengaged, Bool.false_eq_true,
    if_false, if_neg (Int.not_le.mpr low)]

end

end

/-! ### No result touches a window counter (R61) -/

section
variable (s : State) (c : ChanNo)

theorem State.confirmOnset_windows (p : Profile) (mean b n : Nat) :
    (s.confirmOnset c p mean b n).counters.windows = s.counters.windows := by
  unfold State.confirmOnset
  split
  · exact s.hand_windows c _
  · rfl

theorem State.leaveNoisy_windows (p : Profile) (mean : Nat) :
    (s.leaveNoisy c p mean).counters.windows = s.counters.windows := by
  unfold State.leaveNoisy
  dsimp only
  split
  · exact State.hand_windows _ c _
  · split
    · split
      · exact s.hand_windows c _
      · rfl
    · split
      · exact s.confirmOnset_windows c p mean _ 1
      · rfl

theorem State.acceptedMove_windows (p : Profile) (mean : Nat) :
    (s.acceptedMove c p mean).counters.windows = s.counters.windows := by
  unfold State.acceptedMove
  dsimp only
  split
  · exact State.hand_windows _ c _
  · split
    · exact s.confirmOnset_windows c p mean _ 1
    · rfl
  · split
    · exact s.confirmOnset_windows c p mean _ _
    · rfl
  · split
    · exact s.hand_windows c _
    · rfl
  · exact (State.leaveNoisy_windows _ c p mean).trans (s.hand_windows c _)
  all_goals rfl

theorem State.takeRejected_windows (p : Profile) (spread : Nat) :
    (s.takeRejected c p spread).counters.windows = s.counters.windows := by
  obtain e | e | e := s.takeRejected_cases c p spread
  · rw [e]
  · rw [e]
    rfl
  · rw [e]
    exact s.hand_windows c _

end

/-- Settles O17, by the state the result finds and the side of its threshold on which the deviation lies. -/
theorem acceptedResultMovesState : Obligations.AcceptedResultMovesState := by
  intro s c p mean b n
  refine ⟨(channelSide_acceptedMove (P := (· = c)) s c rfl p mean).others, s.sameElsewhere_acceptedMove c p mean,
    s.acceptedMove_windows c p mean, fun settling => ?_, fun base => ⟨State.acceptedMove_idle_low base,
    fun pending low => ?_, fun row high => ⟨fun reached => ?_, fun short => ?_⟩, State.acceptedMove_active_high base,
    fun active low => ?_⟩⟩
  · rw [State.acceptedMove_settling settling]
    exact State.movesTo_captured rfl mean rfl
  · rw [State.acceptedMove_pending_low base pending low]
    exact State.movesTo_enterIdle rfl
  · rw [State.acceptedMove_confirms base row high]
    exact s.movesTo_confirmed c reached
  · rw [State.acceptedMove_confirms base row high]
    exact s.movesTo_unconfirmed c short
  · rw [State.acceptedMove_active_low base active low]
    exact State.movesTo_releaseNormal rfl mean

/-- Settles O18, by the cases of R75 on the part that has been handed the CLEAR. -/
theorem acceptedResultEndsNoisy : Obligations.AcceptedResultEndsNoisy := by
  intro s c p mean b ch dev t quiet noisy
  have time : (s.hand c (.clear mean)).quietTime c = quiet := s.quietTime_hand c _
  have why : ((s.hand c (.clear mean)).chan c).run.cause = ch.run.cause := by rw [State.chan_hand]
  refine ⟨(channelSide_acceptedMove (P := (· = c)) s c rfl p mean).others, s.sameElsewhere_acceptedMove c p mean,
    s.acceptedMove_windows c p mean, fun base => ?_, fun base => ⟨fun engaged low => ?_, fun engaged high => ?_,
    fun unengaged high reached => ?_, fun unengaged high short => ?_, fun unengaged low => ?_⟩⟩
  · rw [show t = _ from State.acceptedMove_noisy_captures noisy base]
    exact (State.movesTo_captured time mean why).after_hand
  · rw [show t = _ from State.acceptedMove_noisy_releases noisy base engaged low]
    exact (State.movesTo_releaseNormal time mean).after_hand
  · rw [show t = _ from State.acceptedMove_noisy_resumes noisy base engaged high]
    exact (State.movesTo_modRun _ c _).after_hand
  · rw [show t = _ from State.acceptedMove_noisy_confirms noisy base unengaged high]
    exact (State.movesTo_confirmed _ c reached).after_hand
  · rw [show t = _ from State.acceptedMove_noisy_confirms noisy base unengaged high]
    exact (State.movesTo_unconfirmed _ c short).after_hand
  · rw [show t = _ from State.acceptedMove_noisy_idles noisy base unengaged low]
    exact (State.movesTo_enterIdle time).after_hand

/-! ### Rejected results (R74) -/

section
variable {s : State} {c : ChanNo} {p : Profile} {spread : Nat}

/-- A channel already in NOISY, or in a state that takes no result, stays as it is (R69, R74). -/
theorem State.takeRejected_of_not_judged
    (untouched : (s.chan c).run.state ∉ [ChanState.settling, .idle, .pending, .active]) :
    s.takeRejected c p spread = s := by
  unfold State.takeRejected
  dsimp only
  split
  · rename_i settling
    exact absurd (by rw [settling]; decide) untouched
  · rename_i idle
    exact absurd (by rw [idle]; decide) untouched
  · rename_i pending
    exact absurd (by rw [pending]; decide) untouched
  · rename_i active
    exact absurd (by rw [active]; decide) untouched
  all_goals rfl

theorem State.takeRejected_limit (judged : (s.chan c).run.state ∈ [ChanState.settling, .idle, .pending, .active])
    (limit : p.rejectLimit ≤ (s.chan c).run.rejectRun) :
    s.takeRejected c p spread =
      (s.hand c (.noisy spread)).modRun c fun r => { r with state := .noisy, confirm := 0, quiet := none } := by
  simp only [List.mem_cons, List.not_mem_nil, or_false] at judged
  obtain e | e | e | e := judged <;> simp only [State.takeRejected, e, if_pos limit]

theorem State.takeRejected_pending (pending : (s.chan c).run.state = .pending)
    (below : (s.chan c).run.rejectRun < p.rejectLimit) : s.takeRejected c p spread = s.enterIdle c := by
  simp only [State.takeRejected, pending, if_neg (Nat.not_le.mpr below), if_true]

theorem State.takeRejected_stays (stays : (s.chan c).run.state ∈ [ChanState.settling, .idle, .active])
    (below : (s.chan c).run.rejectRun < p.rejectLimit) : s.takeRejected c p spread = s := by
  simp only [List.mem_cons, List.not_mem_nil, or_false] at stays
  obtain e | e | e := stays <;>
    simp only [State.takeRejected, e, if_neg (Nat.not_le.mpr below), reduceCtorEq, if_false]

end

/-- Settles O19, by the reject run's side of the limit. -/
theorem rejectedResultMovesState : Obligations.RejectedResultMovesState := by
  intro s c p spread
  refine ⟨(channelSide_takeRejected (P := (· = c)) s c rfl p spread).others, s.sameElsewhere_takeRejected c p spread,
    s.takeRejected_windows c p spread, fun noisy => State.takeRejected_of_not_judged (by rw [noisy]; decide),
    fun judged limit => ?_, fun pending below => ?_, State.takeRejected_stays⟩
  · rw [State.takeRejected_limit judged limit]
    exact (State.movesTo_modRun _ c _).after_hand
  · rw [State.takeRejected_pending pending below]
    exact State.movesTo_enterIdle rfl

/-! ### The VALUE of an accepted result (R76) -/

/-- The three conditions of R76. -/
theorem publishes_iff {before : Channel} {p : Profile} {mean : Nat} :
    publishes before p mean = true ↔
      before.config.mode = .values ∧ before.run.state ∈ [ChanState.idle, .pending, .active] ∧
        ∀ v, before.run.lastValue = some v → p.reportDelta ≤ ((mean : Int) - v).natAbs := by
  unfold publishes
  cases before.run.lastValue with
  | none => simp [or_assoc]
  | some v => simp [absDiff_eq_natAbs, or_assoc, and_assoc]

/-- Settles O20: what is published follows the move, and is handed over after its records. -/
theorem valuePublication : Obligations.ValuePublication := by
  intro s c p mean tier ch u t publish
  refine ⟨fun three => ?_, fun not => if_neg fun h => not (publishes_iff.mp h)⟩
  rw [show t = _ from if_pos (publishes_iff.mpr three)]
  obtain ⟨chan, records⟩ := (State.movesTo_modRun (u.hand c (.value mean tier)) c
    fun r => { r with lastValue := some mean }).after_hand
  refine ⟨chan, records, fun d hd => ?_, ?_, u.hand_windows c _⟩
  · rw [State.chan_modRun_other _ _ hd, State.chan_hand]
  · exact State.sameElsewhere_modRun (State.sameElsewhere_hand u.sameElsewhere_refl c _) c _

end Sys2Proof.Machine
end

section
/-! Every step keeps the relations between the fields of every channel context (R63, R66, R68, R78, R90). -/

namespace Sys2Proof.Machine

/-! ### The relations, state by state

In a state that is known, the twelve relations come down to what each field has to hold. -/

/-- What IDLE and PENDING have in common: the channel runs unengaged, with a valid baseline and a last accepted mean. -/
structure Channel.Watching (ch : Channel) : Prop where
  on : ch.config.mode ≠ .off
  unengaged : ch.run.engaged = false
  untimed : ch.run.maxActive = none
  baseline : ch.run.baseline ≠ none
  mean : ch.window.lastMean ≠ none
  rejects : ch.run.rejectRun ≤ Config.rejectRunMax

section
variable {ch : Channel}

theorem Channel.watching_iff :
    ch.Watching ↔ ch.config.mode ≠ .off ∧ ch.run.engaged = false ∧ ch.run.maxActive = none ∧
      ch.run.baseline ≠ none ∧ ch.window.lastMean ≠ none ∧ ch.run.rejectRun ≤ Config.rejectRunMax :=
  ⟨fun ⟨on, unengaged, untimed, baseline, mean, rejects⟩ => ⟨on, unengaged, untimed, baseline, mean, rejects⟩,
    fun ⟨on, unengaged, untimed, baseline, mean, rejects⟩ => ⟨on, unengaged, untimed, baseline, mean, rejects⟩⟩

/-- The relations with every "is present" spelled "is not absent". -/
theorem Channel.consistent_iff :
    ch.consistent ↔
      (ch.run.state = .off ↔ ch.config.mode = .off) ∧
      (ch.run.state = .active → ch.run.engaged = true) ∧
      (ch.run.engaged = true → (ch.run.state = .active ∨ ch.run.state = .noisy) ∧ ch.run.baseline ≠ none) ∧
      (ch.run.state.hasBaseline = true → ch.run.baseline ≠ none) ∧
      (ch.run.state = .off ∨ ch.run.state = .settling → ch.run.baseline = none) ∧
      (ch.run.baseline ≠ none → ch.window.lastMean ≠ none) ∧
      (ch.run.quiet ≠ none ↔ ch.run.state = .idle) ∧
      (ch.run.maxActive ≠ none → ch.run.engaged = true) ∧
      (ch.run.confirm = 0 ↔ ch.run.state ≠ .pending) ∧
      ch.run.rejectRun ≤ Config.rejectRunMax ∧
      (ch.run.state.takesSamples = false → ch.window.openWin = none) ∧
      (ch.run.state = .off → ch.run.lastValue = none) := by
  simp only [Channel.consistent, Option.isSome_iff_ne_none]

theorem Channel.consistent_off (off : ch.run.state = .off) :
    ch.consistent ↔ ch.config.mode = .off ∧ ch.run.engaged = false ∧ ch.run.maxActive = none ∧
      ch.run.baseline = none ∧ ch.run.confirm = 0 ∧ ch.run.quiet = none ∧ ch.run.rejectRun ≤ Config.rejectRunMax ∧
      ch.window.openWin = none ∧ ch.run.lastValue = none := by
  rw [Channel.consistent_iff, off]
  grind [ChanState.hasBaseline, ChanState.takesSamples]

theorem Channel.consistent_settling (settling : ch.run.state = .settling) :
    ch.consistent ↔ ch.config.mode ≠ .off ∧ ch.run.engaged = false ∧ ch.run.maxActive = none ∧
      ch.run.baseline = none ∧ ch.run.confirm = 0 ∧ ch.run.quiet = none ∧
      ch.run.rejectRun ≤ Config.rejectRunMax := by
  rw [Channel.consistent_iff, settling]
  grind [ChanState.hasBaseline, ChanState.takesSamples]

theorem Channel.consistent_idle (idle : ch.run.state = .idle) :
    ch.consistent ↔ ch.Watching ∧ ch.run.confirm = 0 ∧ ch.run.quiet ≠ none := by
  rw [Channel.consistent_iff, Channel.watching_iff, idle]
  grind [ChanState.hasBaseline, ChanState.takesSamples]

theorem Channel.consistent_pending (pending : ch.run.state = .pending) :
    ch.consistent ↔ ch.Watching ∧ ch.run.confirm ≠ 0 ∧ ch.run.quiet = none := by
  rw [Channel.consistent_iff, Channel.watching_iff, pending]
  grind [ChanState.hasBaseline, ChanState.takesSamples]

theorem Channel.consistent_active (active : ch.run.state = .active) :
    ch.consistent ↔ ch.config.mode ≠ .off ∧ ch.run.engaged = true ∧ ch.run.baseline ≠ none ∧
      ch.window.lastMean ≠ none ∧ ch.run.confirm = 0 ∧ ch.run.quiet = none ∧
      ch.run.rejectRun ≤ Config.rejectRunMax := by
  rw [Channel.consistent_iff, active]
  grind [ChanState.hasBaseline, ChanState.takesSamples]

theorem Channel.consistent_noisy (noisy : ch.run.state = .noisy) :
    ch.consistent ↔ ch.config.mode ≠ .off ∧ (ch.run.engaged = true → ch.run.baseline ≠ none) ∧
      (ch.run.maxActive ≠ none → ch.run.engaged = true) ∧ (ch.run.baseline ≠ none → ch.window.lastMean ≠ none) ∧
      ch.run.confirm = 0 ∧ ch.run.quiet = none ∧ ch.run.rejectRun ≤ Config.rejectRunMax := by
  rw [Channel.consistent_iff, noisy]
  grind [ChanState.hasBaseline, ChanState.takesSamples]

theorem Channel.consistent_silent (silent : ch.run.state = .silent) :
    ch.consistent ↔ ch.config.mode ≠ .off ∧ ch.run.engaged = false ∧ ch.run.maxActive = none ∧
      (ch.run.baseline ≠ none → ch.window.lastMean ≠ none) ∧ ch.run.confirm = 0 ∧ ch.run.quiet = none ∧
      ch.run.rejectRun ≤ Config.rejectRunMax ∧ ch.window.openWin = none := by
  rw [Channel.consistent_iff, silent]
  grind [ChanState.hasBaseline, ChanState.takesSamples]

/-! ### Parts of a channel written -/

section
variable (h : ch.consistent)
include h

/-- A channel in a state other than OFF runs (R68). -/
theorem Channel.consistent.on (notOff : ch.run.state ≠ .off) : ch.config.mode ≠ .off := by
  obtain ⟨off, -⟩ := h
  exact fun e => notOff (off.mpr e)

theorem Channel.consistent.rejects : ch.run.rejectRun ≤ Config.rejectRunMax := by
  obtain ⟨-, -, -, -, -, -, -, -, -, rejects, -⟩ := h
  exact rejects

/-- The window part and the reject run: no window may open where no sample is taken, and no mean may be lost. -/
theorem Channel.consistent.setWindow {w : WindowPart} {n : Nat}
    (closed : ch.run.state.takesSamples = false → w.openWin = none)
    (mean : ch.window.lastMean.isSome → w.lastMean.isSome) (rejects : n ≤ Config.rejectRunMax) :
    ({ ch with window := w, run := { ch.run with rejectRun := n } } : Channel).consistent := by
  obtain ⟨off, active, engaged, baseline, invalid, means, quiet, timer, confirm, -, -, value⟩ := h
  exact ⟨off, active, engaged, baseline, invalid, fun valid => mean (means valid), quiet, timer, confirm, rejects,
    closed, value⟩

/-- A window discarded (R57). -/
theorem Channel.consistent.closeWindow :
    ({ ch with window := { ch.window with openWin := none } } : Channel).consistent :=
  h.setWindow (fun _ => rfl) id h.rejects

/-- A configuration that neither starts nor stops the channel, and the tier (R88). -/
theorem Channel.consistent.setConfig {new : ChannelConfig} (same : new.mode = .off ↔ ch.config.mode = .off)
    (tier : Tier) : ({ ch with config := new, window := { ch.window with tier := tier } } : Channel).consistent := by
  obtain ⟨off, rest⟩ := h
  exact ⟨off.trans same.symm, rest⟩

/-- A published value (R76). -/
theorem Channel.consistent.setValue (on : ch.config.mode ≠ .off) (v : Option Nat) :
    ({ ch with run := { ch.run with lastValue := v } } : Channel).consistent := by
  obtain ⟨off, active, engaged, baseline, invalid, means, quiet, timer, confirm, rejects, closed, -⟩ := h
  exact ⟨off, active, engaged, baseline, invalid, means, quiet, timer, confirm, rejects, closed,
    fun e => absurd (off.mp e) on⟩

/-- A tick leaves running timers running and stopped ones stopped. -/
theorem Channel.consistent.tick : ch.tick.consistent := by
  obtain ⟨off, active, engaged, baseline, invalid, means, quiet, timer, confirm, rejects, closed, value⟩ := h
  exact ⟨off, active, engaged, baseline, invalid, means, by simpa [Channel.tick, tickTimer] using quiet,
    by simpa [Channel.tick, tickTimer] using timer, confirm, rejects, closed, value⟩

end

/-- A restart leaves a running channel settling and any other off (R62, R89). -/
theorem Channel.restart_consistent (ch : Channel) : ch.restart.consistent := by
  by_cases off : ch.config.mode = .off
  · exact (Channel.consistent_off (if_pos off)).mpr ⟨off, rfl, rfl, rfl, rfl, rfl, Nat.zero_le _, rfl, rfl⟩
  · exact (Channel.consistent_settling (if_neg off)).mpr ⟨off, rfl, rfl, rfl, rfl, rfl, Nat.zero_le _⟩

end

/-! ### One channel's event -/

section
variable {s : State} {c : ChanNo}

/-- An event of channel `c` has to keep the relations of that channel only. -/
theorem channelsConsistent_of_others {t : State} (h : s.channelsConsistent)
    (others : ∀ d, d ≠ c → t.chan d = s.chan d) (own : (t.chan c).consistent) : t.channelsConsistent := by
  intro d
  by_cases e : d = c
  · rw [e]
    exact own
  · rw [others d e]
    exact h d

/-! ### Entries (R66–R68) -/

theorem consistent_enterIdle (watching : (s.chan c).Watching) : ((s.enterIdle c).chan c).consistent := by
  obtain ⟨on, unengaged, untimed, baseline, mean, rejects⟩ := watching
  rw [(State.movesTo_enterIdle rfl).chan]
  exact (Channel.consistent_idle rfl).mpr
    ⟨⟨on, unengaged, untimed, baseline, mean, rejects⟩, rfl, Option.some_ne_none _⟩

theorem consistent_enterSettling (on : (s.chan c).config.mode ≠ .off) (cause : CaptureCause) :
    ((s.enterSettling c cause).chan c).consistent := by
  rw [State.chan_enterSettling]
  exact (Channel.consistent_settling rfl).mpr ⟨on, rfl, rfl, rfl, rfl, rfl, Nat.zero_le _⟩

/-- Whatever a running channel was doing, it ends in SETTLING. -/
theorem consistent_endSettling (on : (s.chan c).config.mode ≠ .off) (x : ReleaseReason) (cause : CaptureCause) :
    ((((s.abandon c).endEngagement c x).enterSettling c cause).chan c).consistent := by
  rw [State.chan_endSettling]
  exact (Channel.consistent_settling rfl).mpr ⟨on, rfl, rfl, rfl, rfl, rfl, Nat.zero_le _⟩

theorem consistent_endOff (off : (s.chan c).config.mode = .off) (x : ReleaseReason) :
    ((((s.abandon c).endEngagement c x).enterOff c).chan c).consistent := by
  rw [State.chan_endOff]
  exact (Channel.consistent_off rfl).mpr ⟨off, rfl, rfl, rfl, rfl, rfl, Nat.zero_le _, rfl, rfl⟩

/-! ### Accepted results (R70–R75) -/

theorem consistent_confirmOnset {n : Nat} (watching : (s.chan c).Watching) (counted : n ≠ 0) (p : Profile)
    (mean b : Nat) : ((s.confirmOnset c p mean b n).chan c).consistent := by
  obtain ⟨on, unengaged, untimed, baseline, means, rejects⟩ := watching
  obtain reached | short := le_or_gt p.confirm n
  · rw [(s.movesTo_confirmed c reached).chan]
    exact (Channel.consistent_active rfl).mpr ⟨on, rfl, baseline, means, rfl, rfl, rejects⟩
  · rw [(s.movesTo_unconfirmed c short).chan]
    exact (Channel.consistent_pending rfl).mpr ⟨⟨on, unengaged, untimed, baseline, means, rejects⟩, counted, rfl⟩

theorem consistent_captured (on : (s.chan c).config.mode ≠ .off) (unengaged : (s.chan c).run.engaged = false)
    (untimed : (s.chan c).run.maxActive = none) (stored : (s.chan c).window.lastMean ≠ none)
    (rejects : (s.chan c).run.rejectRun ≤ Config.rejectRunMax) (mean : Nat) :
    (((s.capture c mean).enterIdle c).chan c).consistent := by
  rw [(State.movesTo_captured rfl mean rfl).chan]
  exact (Channel.consistent_idle rfl).mpr
    ⟨⟨on, unengaged, untimed, Option.some_ne_none _, stored, rejects⟩, rfl, Option.some_ne_none _⟩

theorem consistent_releaseNormal (on : (s.chan c).config.mode ≠ .off) (baseline : (s.chan c).run.baseline ≠ none)
    (stored : (s.chan c).window.lastMean ≠ none) (rejects : (s.chan c).run.rejectRun ≤ Config.rejectRunMax)
    (mean : Nat) : ((s.releaseNormal c mean).chan c).consistent := by
  rw [(State.movesTo_releaseNormal rfl mean).chan]
  exact (Channel.consistent_idle rfl).mpr ⟨⟨on, rfl, rfl, baseline, stored, rejects⟩, rfl, Option.some_ne_none _⟩

/-- The first accepted result in NOISY, by the cases of R75. -/
theorem consistent_leaveNoisy (h : (s.chan c).consistent) (noisy : (s.chan c).run.state = .noisy)
    (stored : (s.chan c).window.lastMean ≠ none) (p : Profile) (mean : Nat) :
    ((s.leaveNoisy c p mean).chan c).consistent := by
  obtain ⟨on, valid, timed, -, confirm, quiet, rejects⟩ := (Channel.consistent_noisy noisy).mp h
  have untimed (unengaged : (s.chan c).run.engaged = false) : (s.chan c).run.maxActive = none :=
    not_not.mp fun running => by simp [timed running] at unengaged
  unfold State.leaveNoisy
  dsimp only
  split
  · rename_i base
    have unengaged : (s.chan c).run.engaged = false := Bool.eq_false_iff.mpr fun engaged => valid engaged base
    exact consistent_captured on unengaged (untimed unengaged) stored rejects mean
  · rename_i b base
    have baseline : (s.chan c).run.baseline ≠ none := by rw [base]; exact Option.some_ne_none b
    split
    · rename_i engaged
      split
      · exact consistent_releaseNormal on baseline stored rejects mean
      · rw [State.chan_modRun_same]
        exact (Channel.consistent_active rfl).mpr ⟨on, engaged, baseline, stored, confirm, quiet, rejects⟩
    · rename_i unengaged
      have unengaged := Bool.eq_false_iff.mpr unengaged
      have watching : (s.chan c).Watching := ⟨on, unengaged, untimed unengaged, baseline, stored, rejects⟩
      split
      · exact consistent_confirmOnset watching Nat.one_ne_zero p mean b
      · exact consistent_enterIdle watching

/-- An accepted result, its mean stored, by the state it finds (R70–R73, R75). -/
theorem consistent_acceptedMove (h : (s.chan c).consistent) (stored : (s.chan c).window.lastMean ≠ none) (p : Profile)
    (mean : Nat) : ((s.acceptedMove c p mean).chan c).consistent := by
  unfold State.acceptedMove
  dsimp only
  split
  · rename_i settling
    obtain ⟨on, unengaged, untimed, -, -, -, rejects⟩ := (Channel.consistent_settling settling).mp h
    exact consistent_captured on unengaged untimed stored rejects mean
  · rename_i idle _
    obtain ⟨watching, -⟩ := (Channel.consistent_idle idle).mp h
    split
    · exact consistent_confirmOnset watching Nat.one_ne_zero p mean _
    · exact h
  · rename_i pending _
    obtain ⟨watching, -⟩ := (Channel.consistent_pending pending).mp h
    split
    · exact consistent_confirmOnset watching (Nat.succ_ne_zero _) p mean _
    · exact consistent_enterIdle watching
  · rename_i active _
    obtain ⟨on, -, baseline, -, -, -, rejects⟩ := (Channel.consistent_active active).mp h
    split
    · exact consistent_releaseNormal on baseline stored rejects mean
    · exact h
  · rename_i noisy
    refine consistent_leaveNoisy ?_ ?_ ?_ p mean <;> rw [State.chan_hand]
    · exact h
    · exact noisy
    · exact stored
  all_goals exact h

theorem consistent_takeAccepted (h : (s.chan c).consistent) (stored : (s.chan c).window.lastMean ≠ none) (p : Profile)
    (mean : Nat) (tier : Tier) : ((s.takeAccepted c p mean tier).chan c).consistent := by
  have moved := consistent_acceptedMove h stored p mean
  unfold State.takeAccepted
  dsimp only
  split
  · rename_i published
    obtain ⟨values, -⟩ := publishes_iff.mp published
    rw [State.chan_modRun_same, State.chan_hand]
    refine moved.setValue ?_ _
    rw [(channelSide_acceptedMove (P := (· = c)) s c rfl p mean).config, values]
    exact Mode.noConfusion
  · exact moved

/-! ### Rejected results (R74) -/

/-- Entry into NOISY keeps engagement, max-active timer and baseline as they were. -/
theorem consistent_enterNoisy (h : (s.chan c).consistent)
    (judged : (s.chan c).run.state ∈ [ChanState.settling, .idle, .pending, .active]) :
    ({ s.chan c with
        run := { (s.chan c).run with state := .noisy, confirm := 0, quiet := none } } : Channel).consistent := by
  have on := h.on fun off => by simp [off] at judged
  obtain ⟨-, -, engaged, -, -, means, -, timer, -⟩ := Channel.consistent_iff.mp h
  exact (Channel.consistent_noisy rfl).mpr ⟨on, fun e => (engaged e).2, timer, means, rfl, rfl, h.rejects⟩

theorem consistent_takeRejected (h : (s.chan c).consistent) (p : Profile) (spread : Nat) :
    ((s.takeRejected c p spread).chan c).consistent := by
  by_cases judged : (s.chan c).run.state ∈ [ChanState.settling, .idle, .pending, .active]
  · obtain limit | below := le_or_gt p.rejectLimit (s.chan c).run.rejectRun
    · rw [State.takeRejected_limit judged limit, State.chan_modRun_same, State.chan_hand]
      exact consistent_enterNoisy h judged
    · by_cases pending : (s.chan c).run.state = .pending
      · rw [State.takeRejected_pending pending below]
        exact consistent_enterIdle ((Channel.consistent_pending pending).mp h).1
      · rw [State.takeRejected_stays (by simpa [pending] using judged) below]
        exact h
  · rw [State.takeRejected_of_not_judged judged]
    exact h

/-! ### Windows (R43–R50) -/

theorem consistent_closeWindow (h : (s.chan c).consistent) (w : Window) : ((s.closeWindow c w).chan c).consistent := by
  by_cases bad : w.overrange = true ∨ (s.profileOf c).spreadLimit < w.spread
  · rw [s.closeWindow_rejected c bad]
    refine consistent_takeRejected ?_ _ _
    rw [State.chan_judged]
    exact h.setWindow (fun _ => rfl) id (Nat.min_le_right _ _)
  · obtain ⟨inRange, narrow⟩ := not_or.mp bad
    rw [s.closeWindow_accepted c (Bool.eq_false_iff.mpr inRange) (Nat.not_lt.mp narrow)]
    obtain ⟨⟨tier, channel⟩, -⟩ :=
      s.selectTier_measured_frame c (s.profileOf c) (rateOf (s.chan c).window.lastMean w.mean) w.mean
    refine consistent_takeAccepted ?_ ?_ _ _ _ <;> rw [channel]
    · exact h.setWindow (fun _ => rfl) (fun _ => rfl) (Nat.zero_le _)
    · exact Option.some_ne_none _

theorem consistent_deliverSample (h : (s.chan c).consistent) (x : Sample) :
    ((s.deliverSample c x).chan c).consistent := by
  unfold State.deliverSample
  dsimp only
  split
  · rename_i taken
    split
    · rw [State.chan_modWindow_same]
      exact h.setWindow (fun untaken => absurd taken (Bool.eq_false_iff.mp untaken)) id h.rejects
    · exact consistent_closeWindow h _
  · exact h

theorem consistent_abandon (h : (s.chan c).consistent) : ((s.abandon c).chan c).consistent := by
  rw [State.chan_abandon]
  exact h.closeWindow

/-! ### Route events and timers (R30, R31, R79, R81–R83, R97) -/

theorem consistent_silenceEvent (h : (s.chan c).consistent) : ((s.silenceEvent c).chan c).consistent := by
  rw [State.chan_silenceEvent]
  split
  · rename_i running
    obtain ⟨-, -, -, -, -, means, -, timer, -⟩ := Channel.consistent_iff.mp h
    refine (Channel.consistent_silent rfl).mpr
      ⟨(Channel.running_iff _).mp running, rfl, ?_, means, rfl, rfl, Nat.zero_le _, rfl⟩
    show (if (s.chan c).run.engaged = true then none else (s.chan c).run.maxActive) = none
    split
    · rfl
    · rename_i unengaged
      exact not_not.mp fun running => unengaged (timer running)
  · exact h

theorem consistent_resumeEvent (h : (s.chan c).consistent) : ((s.resumeEvent c).chan c).consistent := by
  by_cases silent : (s.chan c).run.state = .silent
  · obtain ⟨on, unengaged, untimed, means, -, -, rejects, -⟩ := (Channel.consistent_silent silent).mp h
    cases base : (s.chan c).run.baseline with
    | some b =>
      have baseline : (s.chan c).run.baseline ≠ none := by rw [base]; exact Option.some_ne_none b
      rw [s.chan_resumeEvent_idle c silent base]
      exact (Channel.consistent_idle rfl).mpr
        ⟨⟨on, unengaged, untimed, baseline, means baseline, rejects⟩, rfl, Option.some_ne_none _⟩
    | none =>
      rw [s.chan_resumeEvent_settling c silent base]
      exact (Channel.consistent_settling rfl).mpr ⟨on, rfl, rfl, rfl, rfl, rfl, Nat.zero_le _⟩
  · rw [s.resumeEvent_of_not_silent c silent]
    exact h

theorem consistent_unrouteEvent (h : (s.chan c).consistent) : ((s.unrouteEvent c).chan c).consistent := by
  unfold State.unrouteEvent
  split
  · rename_i running
    exact consistent_endSettling ((Channel.running_iff _).mp running) _ _
  · exact h

theorem consistent_abandonRunning (h : (s.chan c).consistent) : ((s.abandonRunning c).chan c).consistent := by
  unfold State.abandonRunning
  split
  · exact consistent_abandon h
  · exact h

/-- A quiet timer runs in IDLE only, and a drift step keeps the baseline valid (R90, R97). -/
theorem consistent_driftStep (h : (s.chan c).consistent) (due : timerExpired (s.chan c).run.quiet = true) :
    ((s.driftStep c).chan c).consistent := by
  have idle : (s.chan c).run.state = .idle := by
    obtain ⟨-, -, -, -, -, -, quiet, -⟩ := h
    exact quiet.mp (by rw [eq_of_beq due]; rfl)
  obtain ⟨⟨on, unengaged, untimed, baseline, means, rejects⟩, confirm, -⟩ := (Channel.consistent_idle idle).mp h
  rw [State.driftStep, State.chan_modRun_same]
  refine (Channel.consistent_idle ?_).mpr
    ⟨⟨on, unengaged, untimed, ?_, means, rejects⟩, confirm, Option.some_ne_none _⟩
  · exact idle
  dsimp only
  split
  · exact Option.some_ne_none _
  · exact baseline

/-- An engaged channel runs (R65, R68). -/
theorem consistent_stuckExpiry (h : (s.chan c).consistent) (engaged : (s.chan c).run.engaged = true) :
    ((s.stuckExpiry c).chan c).consistent := by
  have on : (s.chan c).config.mode ≠ .off := by
    refine h.on fun off => ?_
    obtain ⟨-, unengaged, -⟩ := (Channel.consistent_off off).mp h
    simp [unengaged] at engaged
  rw [State.chan_stuckExpiry]
  exact (Channel.consistent_settling rfl).mpr ⟨on, rfl, rfl, rfl, rfl, rfl, Nat.zero_le _⟩

/-! ### SET_CHANNEL (R16) -/

/-- A new configuration, by the cases of R16. -/
theorem consistent_setConfig (h : (s.chan c).consistent) (new : ChannelConfig) :
    ((s.setConfig c new).chan c).consistent := by
  have mode : ((s.stored c new).chan c).config.mode = new.mode := by rw [State.chan_stored]
  have kept (same : new.mode = .off ↔ (s.chan c).config.mode = .off) : ((s.stored c new).chan c).consistent := by
    rw [State.chan_stored]
    exact h.setConfig same _
  rw [State.setConfig_eq]
  by_cases ho : (s.chan c).config.mode = .off
  · by_cases hn : new.mode = .off
    · rw [State.applyModeChange_quiet _ c ho hn]
      exact kept (iff_of_true hn ho)
    · rw [State.applyModeChange_start _ c ho hn]
      exact consistent_enterSettling (mode.trans_ne hn) _
  · by_cases hn : new.mode = .off
    · rw [State.applyModeChange_stop _ c ho hn]
      exact consistent_endOff (mode.trans hn) _
    · by_cases hp : (s.chan c).config.polarity = new.polarity
      · rw [State.applyModeChange_plain _ c ho hn hp]
        exact kept (iff_of_false hn ho)
      · rw [State.applyModeChange_polarity _ c ho hn hp]
        exact consistent_endSettling (mode.trans_ne hn) _ _

theorem channelsConsistent_setConfig (h : s.channelsConsistent) (new : ChannelConfig) :
    (s.setConfig c new).channelsConsistent := by
  obtain ⟨-, -, -, -, -, -, -, -, others⟩ := setConfig_frame s c new
  exact channelsConsistent_of_others h others (consistent_setConfig (h c) new)

end

/-! ### Every step -/

theorem channelsConsistent_heldIn (cause : PowerCause) : (State.heldIn cause).channelsConsistent := fun c => by
  rw [State.chan_heldIn]
  exact Channel.restart_consistent .initial

theorem keptByEvents_channelsConsistent : KeptByEvents State.channelsConsistent where
  congr h e c := by rw [e.chan c]; exact h c
  sample s c x h := channelsConsistent_of_others h (channelSide_deliverSample (P := (· = c)) s c rfl x).others
    (consistent_deliverSample (h c) x)
  abandon s c h := channelsConsistent_of_others h (channelSide_abandonRunning (P := (· = c)) s c rfl).others
    (consistent_abandonRunning (h c))
  silence s c h := channelsConsistent_of_others h (channelSide_silenceEvent (P := (· = c)) s c rfl).others
    (consistent_silenceEvent (h c))
  resume s c h := channelsConsistent_of_others h (channelSide_resumeEvent (P := (· = c)) s c rfl).others
    (consistent_resumeEvent (h c))
  unroute s c h := channelsConsistent_of_others h (channelSide_unrouteEvent (P := (· = c)) s c rfl).others
    (consistent_unrouteEvent (h c))
  drift s c due h := channelsConsistent_of_others h (channelSide_driftStep (P := (· = c)) s c rfl).others
    (consistent_driftStep (h c) due)
  stuck s c engaged h := channelsConsistent_of_others h (channelSide_stuckExpiry (P := (· = c)) s c rfl).others
    (consistent_stuckExpiry (h c) engaged)
  force s c running h := channelsConsistent_of_others h (channelSide_forceSettling (P := (· = c)) s c rfl).others
    (consistent_endSettling ((Channel.running_iff _).mp running) _ _)
  restart s tag h c := by rw [State.chan_restart]; exact Channel.restart_consistent _
  tick s h c := by rw [State.chan_tick]; exact (h c).tick

/-- Settles O52, event by event on the channel concerned. -/
theorem stepKeepsChannelsConsistent : Obligations.StepKeepsChannelsConsistent := fun _ _ =>
  keptByEvents_channelsConsistent.keeps_step channelsConsistent_heldIn
    (fun _ _ new h => channelsConsistent_setConfig h new) fun _ _ _ _ h => h

end Sys2Proof.Machine
end

section
/-! One drift step (R96, R97): how far the baseline moves, and what becomes of its channel. -/

namespace Sys2Proof.Machine

/-! ### The move of the baseline (R97) -/

section
variable (step : Nat) {b m : Nat}

/-- The mean lies at or above the baseline: the baseline rises (R97). -/
theorem driftToward_rise (h : b ≤ m) : driftToward step b m = b + min step (m - b) := if_pos h

/-- The mean lies at or below the baseline: the baseline falls; where the two are equal, it stays (R97). -/
theorem driftToward_fall (h : m ≤ b) : driftToward step b m = b - min step (b - m) := by
  obtain below | rfl := Nat.lt_or_eq_of_le h
  · exact if_neg (Nat.not_le.mpr below)
  · rw [driftToward_rise step h, Nat.sub_self, Nat.min_zero, Nat.add_zero, Nat.sub_zero]

/-- The moved baseline does not fall below both levels; `driftToward_le` gives the bound above. -/
theorem le_driftToward {n : Nat} (hb : n ≤ b) (hm : n ≤ m) : n ≤ driftToward step b m := by
  obtain rise | fall := Nat.le_total b m
  · rw [driftToward_rise step rise]
    exact hb.trans (Nat.le_add_right b _)
  · rw [driftToward_fall step fall]
    omega

end

/-- With baseline and last accepted mean present, a drift step writes the moved baseline and restarts the quiet timer
(R96, R97). -/
theorem State.driftStep_eq {s : State} {c : ChanNo} {b m : Nat} (baseline : (s.chan c).run.baseline = some b)
    (mean : (s.chan c).window.lastMean = some m) :
    s.driftStep c =
      s.setChan c { s.chan c with
        run := { (s.chan c).run with
          baseline := some (driftToward (s.profileOf c).driftStep b m)
          quiet := some (s.quietTime c) } } := by
  rw [State.driftStep, State.modRun, baseline, mean]
  rfl

/-- Settles O22, by whether the mean lies above or below the baseline. -/
theorem driftStep : Obligations.DriftStep := by
  intro s c b m ch p baseline mean
  exact ⟨driftToward p.driftStep b m, State.driftStep_eq baseline mean, driftToward_rise p.driftStep,
    driftToward_fall p.driftStep, le_driftToward _ (Nat.min_le_left b m) (Nat.min_le_right b m),
    driftToward_le _ (Nat.le_max_left b m) (Nat.le_max_right b m)⟩

end Sys2Proof.Machine
end

section
/-! SUPPORT. Record entry as one relation with a case for each case of R109 (R109–R114), and the delivery parts after a
take, a freed slot, a delivery and a release (R117, R118, R120, R122). -/

namespace Sys2Proof.Machine

/-! ### Kinds of records (R102) -/

theorem Record.isValue_iff (r : Record) : r.isValue = true ↔ ∃ v t, r.kind = .value v t := by
  unfold Record.isValue
  cases r.kind <;> simp

theorem Record.isValueOf_iff (r : Record) (c : ChanNo) : r.isValueOf c = true ↔ r.isValue = true ∧ r.channel = c := by
  rw [Record.isValueOf, Bool.and_eq_true, beq_iff_eq]

theorem Record.isValueOf_other {r : Record} {c : ChanNo} (h : c ≠ r.channel) : r.isValueOf c = false := by
  rw [Record.isValueOf, beq_eq_false_iff_ne.mpr h.symm, Bool.and_false]

theorem Record.isValueOf_setLoss (r : Record) (n : Nat) (c : ChanNo) :
    ({ r with loss := n } : Record).isValueOf c = r.isValueOf c := rfl

/-- The record that a coalescing VALUE leaves in the place of `x` (R110, R111). -/
theorem coalesceIn_eq_map (new : Record) (l : List Record) :
    coalesceIn new l = l.map fun x => if x.isValueOf new.channel then { x with kind := new.kind, time := new.time } else x :=
  rfl

/-- Coalescing puts a VALUE in the place of a VALUE of the same channel. -/
theorem isValueOf_coalesced {new : Record} (value : new.isValue = true) (x : Record) (c : ChanNo) :
    (if x.isValueOf new.channel then { x with kind := new.kind, time := new.time } else x : Record).isValueOf c =
      x.isValueOf c := by
  split
  · rename_i own
    obtain ⟨old, channel⟩ := (x.isValueOf_iff _).mp own
    show (new.isValue && x.channel == c) = (x.isValue && x.channel == c)
    rw [value, old]
  · rfl

theorem countP_coalesceIn {new : Record} (value : new.isValue = true) (l : List Record) (c : ChanNo) :
    (coalesceIn new l).countP (Record.isValueOf c) = l.countP (Record.isValueOf c) := by
  rw [coalesceIn_eq_map, List.countP_map]
  exact List.countP_congr fun x _ => by rw [Function.comp_apply, isValueOf_coalesced value]

theorem coalesceIn_length (new : Record) (l : List Record) : (coalesceIn new l).length = l.length := by
  rw [coalesceIn, List.length_map]

/-- A coalesced record is one of the list, but for kind and time. -/
theorem mem_coalesceIn {new x : Record} {l : List Record} (h : x ∈ coalesceIn new l) :
    ∃ old ∈ l, x.channel = old.channel ∧ x.loss = old.loss := by
  rw [coalesceIn_eq_map, List.mem_map] at h
  obtain ⟨old, mem, rfl⟩ := h
  refine ⟨old, mem, ?_⟩
  split <;> exact ⟨rfl, rfl⟩

/-! ### How a record enters (R109) -/

/-- `u` is what the entry of record `r` makes of the events `e`: one constructor for each case of R109, its case 4 split by
what R113 does. -/
inductive Events.Enters (e : Events) (r : Record) : Events → Prop
  | coalesceQueued (value : r.isValue = true) : e.Enters r { e with queue := coalesceIn r e.queue }
  | coalesceHeld (value : r.isValue = true) :
      e.Enters r (e.setDel r.channel { e.del r.channel with held := coalesceIn r (e.del r.channel).held })
  | stage (v : Staged) (inFlight : (e.del r.channel).inFlight = true) :
      e.Enters r (e.setDel r.channel { e.del r.channel with staged := some v })
  | append (passes : e.passes r) (some : (e.del r.channel).held ≠ [])
      (room : (e.del r.channel).held.length < Config.heldCapacity) :
      e.Enters r (e.setDel r.channel { e.del r.channel with held := (e.del r.channel).held ++ [r] })
  | discard (some : (e.del r.channel).held ≠ []) :
      e.Enters r (e.setDel r.channel
        { e.del r.channel with pendingLoss := min ((e.del r.channel).pendingLoss + 1) Config.lossMax })
  | enqueue (passes : e.passes r) (none : (e.del r.channel).held = []) (room : e.queue.length < Config.queueCapacity) :
      e.Enters r (e.enqueue r)
  | hold (passes : e.passes r) (none : (e.del r.channel).held = []) (full : Config.queueCapacity ≤ e.queue.length) :
      e.Enters r { e.setDel r.channel { e.del r.channel with held := [r] } with deferred := e.deferred ++ [r.channel] }

/-- The cases of R109 in which a record is coalesced or staged; in the others it passes them (R109–R112). -/
theorem Events.entryCase_cases (e : Events) (r : Record) :
    (r.isValue = true ∧ e.entryCase r = .coalesceQueued) ∨ (r.isValue = true ∧ e.entryCase r = .coalesceHeld) ∨
    ((e.del r.channel).inFlight = true ∧ ∃ v t, e.entryCase r = .stage v t) ∨
    (e.passes r ∧ e.entryCase r = e.lateCase r.channel) := by
  by_cases passes : e.passes r
  · exact .inr (.inr (.inr ⟨passes, Events.entryCase_of_passes passes⟩))
  · have value : r.isValue = true := by
      by_contra other
      exact passes fun h => absurd h other
    obtain ⟨v, t, kind⟩ := r.isValue_iff.mp value
    simp only [Events.entryCase, kind]
    split
    · exact .inl ⟨value, rfl⟩
    · rename_i queue
      split
      · exact .inr (.inl ⟨value, rfl⟩)
      · rename_i held
        split
        · exact .inr (.inr (.inl ⟨by assumption, v, t, rfl⟩))
        · rename_i inFlight
          exact absurd (fun _ => ⟨by simpa using queue, by simpa using held, by simpa using inFlight⟩) passes

/-- Every record enters by one of the cases of R109. -/
theorem Events.enters (e : Events) (r : Record) : e.Enters r (e.enter r) := by
  obtain ⟨value, h⟩ | ⟨value, h⟩ | ⟨inFlight, v, t, h⟩ | ⟨passes, late⟩ := e.entryCase_cases r
  · rw [Events.enter_coalesceQueued h]
    exact .coalesceQueued value
  · rw [Events.enter_coalesceHeld h]
    exact .coalesceHeld value
  · rw [Events.enter_stage h]
    exact .stage _ inFlight
  · cases h : e.lateCase r.channel with
    | append =>
      rw [Events.enter_append (late.trans h)]
      exact .append passes (Events.lateCase_append h).1 (Events.lateCase_append h).2
    | discard =>
      rw [Events.enter_discard (late.trans h)]
      exact .discard (Events.lateCase_discard h).1
    | enqueue =>
      rw [Events.enter_enqueue (late.trans h)]
      exact .enqueue passes (Events.lateCase_enqueue h).1 (Events.lateCase_enqueue h).2
    | hold =>
      rw [Events.enter_hold (late.trans h)]
      exact .hold passes (Events.lateCase_hold h).1 (Events.lateCase_hold h).2
    | coalesceQueued | coalesceHeld | stage v t =>
      unfold Events.lateCase at h
      split at h <;> split at h <;> cases h

/-! ### A record at the queue's tail (R114) -/

/-- The queue takes the record with the channel's pending loss, which the channel gives up. -/
theorem Events.enqueue_eq (e : Events) (r : Record) :
    e.enqueue r =
      { e.setDel r.channel { e.del r.channel with pendingLoss := 0 } with
        queue := e.queue ++ [{ r with loss := (e.del r.channel).pendingLoss }] } := rfl

/-! ### A take, and the slots it frees (R117, R118) -/

/-- The flags that a take sets: those of the channels with a VALUE among the records taken (R117). -/
theorem Events.del_setFlags (e : Events) (taken : List Record) (c : ChanNo) :
    (e.setFlags taken).del c =
      { e.del c with inFlight := (e.del c).inFlight || taken.any (Record.isValueOf c) } := by
  unfold Events.setFlags
  induction taken generalizing e with
  | nil => simp
  | cons r taken ih =>
    rw [List.foldl_cons, ih, List.any_cons, ← Bool.or_assoc]
    by_cases own : c = r.channel
    · subst own
      by_cases value : r.isValue = true
      · simp [value, Record.isValueOf]
      · simp [value, Record.isValueOf]
    · rw [Record.isValueOf_other own, Bool.or_false]
      split
      · rw [Events.del_setDel_other _ _ own]
      · rfl

/-- The events once a take has removed its records and set their flags, before the freed slots are served (R117). -/
def Events.taken (e : Events) : Events :=
  ({ e with queue := e.queue.drop Config.recordsPerFrame }).setFlags e.head

theorem Events.take_eq (e : Events) : e.take = Events.serve e.head.length e.taken := rfl

theorem Events.taken_queue (e : Events) : e.taken.queue = e.queue.drop Config.recordsPerFrame :=
  Events.setFlags_queue _ _

theorem Events.taken_deferred (e : Events) : e.taken.deferred = e.deferred := Events.setFlags_deferred _ _

theorem Events.del_taken (e : Events) (c : ChanNo) :
    e.taken.del c = { e.del c with inFlight := (e.del c).inFlight || e.head.any (Record.isValueOf c) } :=
  Events.del_setFlags _ _ _

/-- With no channel waiting, a freed slot stays free. -/
theorem Events.serveSlot_nil {e : Events} (h : e.deferred = []) : e.serveSlot = e := by
  simp only [Events.serveSlot, h]

/-- The channel that waits first gives its oldest held record to the freed slot (R118). -/
theorem Events.serveSlot_cons {e : Events} {c : ChanNo} {waiting : List ChanNo} {r : Record} {rest : List Record}
    (first : e.deferred = c :: waiting) (held : (e.del c).held = r :: rest) (channel : r.channel = c) :
    e.serveSlot =
      { e.setDel c { e.del c with held := rest, pendingLoss := 0 } with
        queue := e.queue ++ [{ r with loss := (e.del c).pendingLoss }]
        deferred := if rest = [] then waiting else waiting ++ [c] } := by
  subst channel
  simp only [Events.serveSlot, first, held, Events.enqueue_eq, Events.del_setDel_same]
  simp [Events.setDel]

/-- What a slot served keeps, `k` slots served keep. -/
theorem Events.serve_keeps {I : Nat → Events → Prop} (h : ∀ k e, I (k + 1) e → I k e.serveSlot) (k : Nat) (e : Events)
    (hI : I k e) : I 0 (Events.serve k e) := by
  induction k generalizing e with
  | zero => exact hI
  | succ k ih => exact ih _ (h k e hI)

/-! ### Deliveries (R120) -/

/-- A record of an acknowledged frame, as the events see it: for a VALUE, its channel's flag is cleared and its staged value
released. -/
def Events.deliver (e : Events) (r : Record) : Events :=
  if r.isValue then (e.setDel r.channel { e.del r.channel with inFlight := false }).unstage r.channel else e

theorem State.recordDelivered_events (s : State) (r : Record) :
    (s.recordDelivered r).events = s.events.deliver r := by
  unfold State.recordDelivered Events.deliver
  split
  · exact State.releaseStaged_events _ _
  · rfl

theorem State.framesDelivered_events (s : State) (frames : List EventFrame) :
    (s.framesDelivered frames).events = (frames.flatMap (·.records)).foldl Events.deliver s.events := by
  unfold State.framesDelivered
  induction frames.flatMap (·.records) generalizing s with
  | nil => rfl
  | cons r records ih => rw [List.foldl_cons, List.foldl_cons, ih, State.recordDelivered_events]

/-- A release does nothing, or clears the staged value and enters a record of its channel (R120, R122). -/
theorem Events.unstage_cases (e : Events) (c : ChanNo) :
    ((e.del c).staged = none ∧ e.unstage c = e) ∨
    ∃ r : Record, r.channel = c ∧ e.unstage c = (e.setDel c { e.del c with staged := none }).enter r := by
  unfold Events.unstage
  split
  · exact .inl ⟨by assumption, rfl⟩
  · exact .inr ⟨_, rfl, rfl⟩

end Sys2Proof.Machine
end

section
/-! SUPPORT. What the commands do to the event path as a whole: every command enters records, takes records for a frame,
delivers records of acknowledged frames, or begins the path anew (R109, R117, R120, R122, R125). A property that these keep is
kept by every step. -/

namespace Sys2Proof.Machine

/-! ### Commands that only enter records -/

/-- Between `s` and `t` the event path sees records entered, and nothing else. -/
structure RecordsEnter (s t : State) : Prop where
  replay : t.link.replay = s.link.replay
  /-- What every entered record keeps is kept. -/
  events : ∀ I : Events → Prop, (∀ e r, I e → I (e.enter r)) → I s.events → I t.events

theorem recordsEnter_of_same {s t : State} (events : t.events = s.events) (replay : t.link.replay = s.link.replay) :
    RecordsEnter s t := ⟨replay, fun _ _ h => events ▸ h⟩

theorem RecordsEnter.refl (s : State) : RecordsEnter s s := recordsEnter_of_same rfl rfl

theorem RecordsEnter.trans {s t u : State} (h : RecordsEnter s t) (k : RecordsEnter t u) : RecordsEnter s u :=
  ⟨k.replay.trans h.replay, fun I hI hs => k.events I hI (h.events I hI hs)⟩

theorem ChannelSide.recordsEnter {P : ChanNo → Prop} {s t : State} (h : ChannelSide P s t) : RecordsEnter s t :=
  ⟨congrArg Link.replay h.link, h.events⟩

theorem recordsEnter_complete (s : State) (x : Status) (d : List Byte) : RecordsEnter s (s.complete x d) :=
  recordsEnter_of_same (s.complete_events x d) (congrArg Link.replay (s.complete_link x d))

theorem recordsEnter_answerAtArrival (s : State) (r : Response) (k : Option GlobalCounter) :
    RecordsEnter s (s.answerAtArrival r k) :=
  recordsEnter_of_same (s.answerAtArrival_events r k) (congrArg Link.replay (s.answerAtArrival_link r k))

theorem recordsEnter_hand (s : State) (c : ChanNo) (k : RecordKind) : RecordsEnter s (s.hand c k) :=
  (channelSide_hand (P := fun _ => False) s c k).recordsEnter

theorem recordsEnter_raise (s : State) (k : GlobalCounter) : RecordsEnter s (s.raise k) := recordsEnter_of_same rfl rfl

theorem recordsEnter_modInlet (s : State) (f : Inlet → Inlet) : RecordsEnter s (s.modInlet f) :=
  recordsEnter_of_same rfl rfl

theorem recordsEnter_setMgmt (s : State) (m : Mgmt) : RecordsEnter s { s with mgmt := m } := recordsEnter_of_same rfl rfl

theorem recordsEnter_modTrack (s : State) (source : Byte) (f : Tracking → Tracking) :
    RecordsEnter s (s.modTrack source f) := recordsEnter_modInlet s _

section
variable (s : State)

/-- A taken frame: resumptions, a gap and samples enter records; tracking, counts and the mirror copy do not (R28). -/
theorem recordsEnter_takeFrame (a : ActiveRoute) (cls : FrameClass) (m : SampleFrame) :
    RecordsEnter s (s.takeFrame a cls m) := by
  have tracked : RecordsEnter s (s.trackFrame a.route m.sequence) := recordsEnter_of_same rfl rfl
  have resumed : ∀ u : State, RecordsEnter u (u.resumeRoute a) := fun u => by
    unfold State.resumeRoute
    split
    · exact (recordsEnter_modTrack u _ _).trans (channelSide_resumes _ _).recordsEnter
    · exact .refl u
  have gapped : ∀ u : State, RecordsEnter u (u.takeGap a.route cls) := fun u => by
    unfold State.takeGap
    split
    · exact ((recordsEnter_hand u _ _).trans (recordsEnter_raise _ _)).trans
        (channelSide_abandonRange _ _).recordsEnter
    all_goals exact .refl u
  have sampled : ∀ u : State, RecordsEnter u (u.deliverLanes a.route m.samples) := fun u => by
    have lanes := (channelSide_lanes u a.route m.samples).recordsEnter
    unfold State.deliverLanes
    dsimp only
    split
    · exact lanes
    · exact lanes.trans (recordsEnter_raise _ _)
  have copied : ∀ u : State, RecordsEnter u (if a.route.mirror then u.offerMirror m else u) := fun u => by
    unfold State.offerMirror
    split
    · split <;> exact recordsEnter_of_same rfl rfl
    · exact .refl u
  exact tracked.trans ((resumed _).trans ((gapped _).trans ((sampled _).trans (copied _))))

theorem recordsEnter_handleInlet (f : RawFrame) : RecordsEnter s (s.handleInlet f) := by
  unfold State.handleInlet
  split
  · exact recordsEnter_of_same rfl rfl
  · unfold State.routeFrame
    split
    · exact recordsEnter_of_same rfl rfl
    · split
      · exact recordsEnter_of_same rfl rfl
      · exact recordsEnter_takeFrame s _ _ _

/-- A swap taken enters the RELEASEs of the unrouted channels (R39). -/
theorem recordsEnter_takeSwap : RecordsEnter s s.takeSwap :=
  (recordsEnter_modInlet s _).trans (channelSide_takeSwap s).recordsEnter

theorem recordsEnter_takeDueSwap : RecordsEnter s s.takeDueSwap := by
  unfold State.takeDueSwap
  split
  · exact (recordsEnter_takeSwap s).trans (recordsEnter_complete _ _ _)
  · exact .refl s

theorem recordsEnter_beginSwap (params : List Byte) : RecordsEnter s (s.beginSwap params) := by
  unfold State.beginSwap
  split
  · exact recordsEnter_complete _ _ _
  · split
    · exact (recordsEnter_takeSwap s).trans (recordsEnter_complete _ _ _)
    · exact recordsEnter_of_same rfl rfl

/-- An accepted SET_CHANNEL enters the RELEASE of an engagement that it ends (R16). -/
theorem recordsEnter_setConfig (c : ChanNo) (new : ChannelConfig) : RecordsEnter s (s.setConfig c new) := by
  rw [State.setConfig_eq]
  have stored : RecordsEnter s (s.stored c new) :=
    recordsEnter_of_same (State.stored_sameRecords s c new).1 (by
      obtain ⟨tier, groups, h⟩ :=
        (s.modConfig c fun _ => new).changeGroup_cases c (s.chan c).config.group new.group
      rw [State.stored, h]
      rfl)
  exact stored.trans (channelSide_applyModeChange (P := (· = c)) _ c rfl _ _).recordsEnter

end

/-- The execution rows, RESYNC apart, enter records only: SET_CHANNEL and REBASE the RELEASE of an engagement that they end,
and no other row any (R162). -/
theorem rowOwnedBy_recordsEnter {i : Instr} (owned : ownedRow i) (other : i ≠ .resync) : rowOwnedBy RecordsEnter i := by
  have ⟨named, notSwap⟩ := owned
  have edits : ∀ (edit : Inlet → List Route → Prop) (s u : State), EditsShadow edit s u → RecordsEnter s u :=
    fun edit s u ⟨bank, _, edited⟩ => edited ▸ recordsEnter_of_same rfl rfl
  cases i with
  | setRoute => exact rowOwnedBy_setRoute.mono (edits _)
  | dropRoute => exact rowOwnedBy_dropRoute.mono (edits _)
  | copyRoutes => exact rowOwnedBy_copyRoutes.mono (edits _)
  | setChannel =>
    refine ⟨_, ownSetChannel, fun s params => ?_, fun _ => rfl⟩
    unfold ownSetChannel
    split
    · split
      · exact acceptance_answers (recordsEnter_setConfig s _ _)
      · exact refusal_answers _
    · exact refusal_answers _
  | rebase =>
    refine ⟨_, ownRebase, fun s params => ?_, fun _ => rfl⟩
    unfold ownRebase
    split
    · split
      · rename_i c _
        split
        · exact acceptance_answers (channelSide_forceSettling (P := (· = c)) s c rfl).recordsEnter
        · exact refusal_answers _
      · exact refusal_answers _
    · exact refusal_answers _
  | describe | setProfile | getProfile | getChannel | getRoutes | setAlert | quietAlert | readCounters | clearCounters
  | unknownCommand | restartWithParameters =>
    refine ⟨_, _, fun s params => ?_, fun _ => rfl⟩
    simp only [ownDescribe, ownSetProfile, ownGetProfile, ownGetChannel, ownGetRoutes, ownSetAlert, ownQuietAlert,
      ownReadCounters, ownClearCounters, ownUnknown, ownRestart]
    repeat' split
    all_goals first
      | exact refusal_answers _
      | exact acceptance_answers (recordsEnter_of_same rfl rfl)
  | resync => exact absurd rfl other
  | swapRoutes => exact absurd rfl notSwap
  | _ => simp [executionRow] at named

/-- The rows after which the event path has seen more than records entered. -/
def movesRecords : Instr → Bool
  | .powerReset _ | .resetNRelease | .requestFrame _ | .ackFrame _ | .newEventFrame | .resync => true
  | _ => false

/-- Every other row enters records only. -/
theorem exec_recordsEnter {i : Instr} {s t : State} (other : movesRecords i = false) (h : exec i s = .next t) :
    RecordsEnter s t := by
  have on : ∀ {f : State → State}, RecordsEnter s (f s) → RecordsEnter s (s.whileOn f) := State.whileOn_keeps (.refl s)
  by_cases owned : ownedRow i
  · obtain ⟨is, owner, answers, row⟩ := rowOwnedBy_recordsEnter owned (by rintro rfl; cases other)
    cases (row s).symm.trans h
    refine on (State.execute_keeps (.refl s) fun q _ _ => ?_)
    obtain ⟨x, refused⟩ | ⟨u, data, entered, carried⟩ := answers s q.params
    · rw [refused]
      exact recordsEnter_complete _ _ _
    · rw [carried]
      exact entered.trans (recordsEnter_complete _ _ _)
  cases i with
  | sampleFrame f =>
    cases h
    exact on ((recordsEnter_takeDueSwap s).trans
      ((recordsEnter_handleInlet _ f).trans (recordsEnter_modInlet _ _)))
  | silenceTimerExpiry source =>
    cases h
    refine on ?_
    split
    · split
      · exact (recordsEnter_modTrack s _ _).trans (channelSide_silences _ _).recordsEnter
      · exact .refl s
    · exact .refl s
  | maxActiveExpiry c =>
    cases h
    refine on ?_
    split
    · exact (channelSide_stuckExpiry (P := (· = c)) s c rfl).recordsEnter
    · exact .refl s
  | swapRoutes =>
    cases h
    refine on ?_
    split
    · split
      · exact recordsEnter_beginSwap s _
      · exact .refl s
    · exact .refl s
  | swapTaken =>
    cases h
    exact on (recordsEnter_takeDueSwap s)
  | ackTimerExpiry =>
    cases h
    refine on ?_
    split
    · unfold State.ackExpiry
      split <;> exact recordsEnter_of_same rfl rfl
    · exact .refl s
  | transmissionComplete =>
    cases h
    refine on ?_
    split
    · unfold State.completeTransmission
      dsimp only
      split <;> exact recordsEnter_of_same rfl rfl
    · exact .refl s
  | timeBaseTick | inletSyncPair | inboundSyncPair =>
    cases h
    exact on (recordsEnter_of_same rfl rfl)
  | quietTimerExpiry _ | inletTruncation | inboundDiscard _ | inboundTruncation | announceTimerExpiry | holdTimerExpiry
  | responseFrameSend | announceFrameSend | retransmittedFrame | mirrorFrameSend =>
    cases h
    refine on ?_
    split <;> exact recordsEnter_of_same rfl rfl
  | powerReset _ | resetNRelease | requestFrame _ | ackFrame _ | newEventFrame | resync => cases other
  | unknownCommand => exact absurd ⟨.inr (.inl rfl), nofun⟩ owned
  | restartWithParameters => exact absurd ⟨.inr (.inr rfl), nofun⟩ owned
  | _ => exact absurd ⟨.inl rfl, nofun⟩ owned

/-! ### Every command -/

/-- `P` speaks of the events and of the records in the Replay Buffer, oldest first, and all that the commands make of the two
keeps it. -/
structure KeptOnPath (P : Events → List Record → Prop) : Prop where
  enter : ∀ e sent r, P e sent → P (e.enter r) sent
  take : ∀ e sent, P e sent → P e.take (sent ++ e.head)
  deliver : ∀ e r sent, P e (r :: sent) → P (e.deliver r) sent
  resync : ∀ e sent, P e sent → P (allChannels.foldl Events.unstage e.clearFlags) []
  initial : P .initial []

section
variable {P : Events → List Record → Prop} (R : KeptOnPath P) {s t : State} (h : P s.events s.inReplay)
include R h

theorem KeptOnPath.keeps_enters (entered : RecordsEnter s t) : P t.events t.inReplay := by
  rw [State.inReplay, entered.replay]
  exact entered.events (P · s.inReplay) (fun e r => R.enter e _ r) h

omit h in
/-- The records of the removed frames are delivered, oldest first; those of the remaining frames stay (R120). -/
theorem KeptOnPath.keeps_delivered {e : Events} (gone : List Record) {sent : List Record} (h : P e (gone ++ sent)) :
    P (gone.foldl Events.deliver e) sent := by
  induction gone generalizing e with
  | nil => exact h
  | cons r gone ih => exact ih (R.deliver e r _ h)

theorem KeptOnPath.keeps_applyAck (ack : BitVec 6) : P (s.applyAck ack).events (s.applyAck ack).inReplay := by
  have link : (s.applyAck ack).link.replay = s.link.replay.drop (ackedCount s.link.replay ack) :=
    congrArg Link.replay (eventSide_applyAck s ack).link
  rw [State.inReplay, link, State.applyAck, State.framesDelivered_events]
  refine R.keeps_delivered _ ?_
  rw [← List.flatMap_append, List.take_append_drop]
  exact h

/-- A change of the link that spares the Replay Buffer. -/
theorem KeptOnPath.keeps_modLink {f : Link → Link} (replay : (f s.link).replay = s.link.replay) :
    P (s.modLink f).events (s.modLink f).inReplay := R.keeps_enters h (recordsEnter_of_same rfl replay)

/-- An Ack Frame delivers the records of the frames that it removes (R129, R136, R144). -/
theorem KeptOnPath.keeps_takeAck (ack : BitVec 6) (grant : Nat) (resend : Bool) :
    P (s.takeAck ack grant resend).events (s.takeAck ack grant resend).inReplay := by
  have acked := R.keeps_applyAck h ack
  unfold State.takeAck
  split
  · exact R.keeps_modLink h rfl
  · unfold State.ackInUp
    have progressed : RecordsEnter (s.applyAck ack)
        (if ackedCount s.link.replay ack = 0 then s.applyAck ack else (s.applyAck ack).modLink Link.progress) := by
      split <;> exact recordsEnter_of_same rfl rfl
    dsimp only
    generalize (if ackedCount s.link.replay ack = 0 then s.applyAck ack
      else (s.applyAck ack).modLink Link.progress) = u at progressed ⊢
    refine R.keeps_enters acked (progressed.trans ?_)
    split <;> exact recordsEnter_of_same rfl rfl
  · refine R.keeps_enters acked (recordsEnter_of_same rfl ?_)
    show (if _ then _ else _ : Link).replay = _
    split <;> rfl

/-- A new Event Frame takes the queue's head into the Replay Buffer (R117, R134). -/
theorem KeptOnPath.keeps_buildEvent : P s.buildEvent.events s.buildEvent.inReplay := by
  have events : s.buildEvent.events = s.events.take := by simp [State.buildEvent]
  have sent : s.buildEvent.inReplay = s.inReplay ++ s.events.head := by simp [State.buildEvent, State.inReplay]
  rw [events, sent]
  exact R.take _ _ h

/-- RESYNC empties the Replay Buffer, clears the flags and releases the staged values (R122). -/
theorem KeptOnPath.keeps_applyResync : P s.applyResync.events s.applyResync.inReplay := by
  have events : s.applyResync.events = allChannels.foldl Events.unstage s.events.clearFlags := by
    simp [State.applyResync, State.resyncEvents_events]
  have sent : s.applyResync.inReplay = [] := by
    simp [State.applyResync, State.inReplay, (eventSide_resyncEvents _ _).link]
  rw [events, sent]
  exact R.resync _ _ h

theorem KeptOnPath.keeps_takeRequest (q : Request) : P (s.takeRequest q).events (s.takeRequest q).inReplay := by
  unfold State.takeRequest
  dsimp only
  split
  · exact R.initial
  · exact R.keeps_enters h (recordsEnter_answerAtArrival _ _ _)
  · exact R.keeps_enters h (recordsEnter_answerAtArrival _ _ _)
  · exact R.keeps_enters h ((recordsEnter_setMgmt s _).trans (recordsEnter_answerAtArrival _ _ _))
  · exact h

theorem KeptOnPath.keeps_exec {i : Instr} (executed : exec i s = .next t) : P t.events t.inReplay := by
  have on : ∀ {f : State → State}, P (f s).events (f s).inReplay → P (s.whileOn f).events (s.whileOn f).inReplay :=
    State.whileOn_keeps (P := fun u => P u.events u.inReplay) h
  by_cases other : movesRecords i = false
  · exact R.keeps_enters h (exec_recordsEnter other executed)
  cases i with
  | powerReset cause =>
    cases executed
    exact R.initial
  | resetNRelease =>
    cases power : s.power with
    | held cause =>
      cases (exec_release_of_held power).symm.trans executed
      exact R.initial
    | running =>
      cases (exec_release_of_running power).symm.trans executed
      exact h
  | requestFrame f =>
    cases executed
    refine on ?_
    split
    · exact R.keeps_takeRequest (s := s.endInbound) h _
    all_goals exact h
  | ackFrame f =>
    cases executed
    refine on ?_
    split
    · exact R.keeps_takeAck (s := s.endInbound) h _ _ _
    all_goals exact h
  | newEventFrame =>
    cases executed
    refine on ?_
    split
    · exact R.keeps_buildEvent h
    · exact h
  | resync =>
    cases executed
    refine on (State.execute_keeps (P := fun u => P u.events u.inReplay) h fun q _ _ =>
      R.keeps_enters ?_ (recordsEnter_complete _ _ _))
    unfold ownResync
    split
    · exact R.keeps_applyResync h
    · exact h
  | _ => exact absurd rfl other

end

/-- What the commands keep of the event path, every step keeps. -/
theorem KeptOnPath.keeps_step {P : Events → List Record → Prop} (R : KeptOnPath P) {s t : State}
    (h : P s.events s.inReplay) (stepped : step s = .next t) : P t.events t.inReplay :=
  step_keeps (P := fun u => P u.events u.inReplay) (fun _ _ hs => hs) (fun _ _ _ hs => R.keeps_exec hs) h stepped

end Sys2Proof.Machine
end

section
/-! Every step keeps the bounds of Event Queue and Held lists, and the conditions of the Deferred list and the pending losses
(R105–R107, R113, R114, R118). -/

namespace Sys2Proof.Machine

/-! ### The conditions, while freed slots are still to be served -/

/-- The bounds of one channel's Held list and pending loss (R106, R114). -/
structure Delivery.boundedFor (c : ChanNo) (d : Delivery) : Prop where
  length : d.held.length ≤ Config.heldCapacity
  channel : ∀ r ∈ d.held, r.channel = c
  loss : d.pendingLoss ≤ Config.lossMax
  noLoss : d.held = [] → d.pendingLoss = 0

/-- The conditions of R105–R107 and R114 on the events while `free` slots, freed by a take, have still to be served: with
these counted as taken, the queue is as it must be. -/
structure Events.orderedWith (free : Nat) (e : Events) : Prop where
  bound : e.queue.length + free ≤ Config.queueCapacity
  parts : ∀ c, (e.del c).boundedFor c
  nodup : e.deferred.Nodup
  waits : ∀ c, c ∈ e.deferred ↔ (e.del c).held ≠ []
  full : e.deferred ≠ [] → e.queue.length + free = Config.queueCapacity
  losses : ∀ r ∈ e.queue, r.loss ≤ Config.lossMax

theorem Events.ordered_iff (e : Events) : e.ordered ↔ e.orderedWith 0 := by
  constructor
  · rintro ⟨bound, parts, nodup, waits, full, losses⟩
    exact ⟨bound, fun c => have ⟨length, channel, loss, noLoss⟩ := parts c; ⟨length, channel, loss, noLoss⟩, nodup, waits,
      full, losses⟩
  · rintro ⟨bound, parts, nodup, waits, full, losses⟩
    exact ⟨bound, fun c => ⟨(parts c).length, (parts c).channel, (parts c).loss, (parts c).noLoss⟩, nodup, waits, full,
      losses⟩

section
variable {free : Nat} {e : Events} (h : e.orderedWith free)
include h

/-- No channel waits for a place in a queue that has one (R107). -/
theorem Events.orderedWith.deferred_nil (room : e.queue.length + free < Config.queueCapacity) : e.deferred = [] := by
  by_contra waiting
  exact absurd (h.full waiting) (Nat.ne_of_lt room)

/-- Every delivery part is bounded once one channel's has been written. -/
theorem Events.orderedWith.parts_setDel {c : ChanNo} {d : Delivery} (own : d.boundedFor c) (x : ChanNo) :
    ((e.setDel c d).del x).boundedFor x := by
  by_cases same : x = c
  · subst same
    rw [Events.del_setDel_same]
    exact own
  · rw [Events.del_setDel_other _ _ same]
    exact h.parts x

/-- A delivery part written whose Held list is empty as before, or is not as before. -/
theorem Events.orderedWith.setDel {c : ChanNo} {d : Delivery} (own : d.boundedFor c)
    (same : d.held = [] ↔ (e.del c).held = []) : (e.setDel c d).orderedWith free where
  bound := h.bound
  parts := h.parts_setDel own
  nodup := h.nodup
  waits x := by
    rw [Events.setDel_deferred, h.waits x]
    by_cases at_c : x = c
    · subst at_c
      rw [Events.del_setDel_same]
      exact not_congr same.symm
    · rw [Events.del_setDel_other _ _ at_c]
  full := h.full
  losses := h.losses

/-- The conditions see no value-in-flight flag and no staged value. -/
theorem Events.orderedWith.setMarks (c : ChanNo) (inFlight : Bool) (staged : Option Staged) :
    (e.setDel c { e.del c with inFlight := inFlight, staged := staged }).orderedWith free :=
  have own := h.parts c
  h.setDel ⟨own.length, own.channel, own.loss, own.noLoss⟩ Iff.rfl

/-- The same for all channels at once. -/
theorem Events.orderedWith.congr {u : Events} (queue : u.queue = e.queue) (deferred : u.deferred = e.deferred)
    (held : ∀ c, (u.del c).held = (e.del c).held) (loss : ∀ c, (u.del c).pendingLoss = (e.del c).pendingLoss) :
    u.orderedWith free where
  bound := queue ▸ h.bound
  parts c := ⟨held c ▸ (h.parts c).length, held c ▸ (h.parts c).channel, loss c ▸ (h.parts c).loss,
    fun none => loss c ▸ (h.parts c).noLoss (held c ▸ none)⟩
  nodup := deferred ▸ h.nodup
  waits c := by rw [deferred, held, h.waits c]
  full := by rw [deferred, queue]; exact h.full
  losses := queue ▸ h.losses

end

/-! ### Record entry (R109–R114) -/

theorem Events.Enters.keeps_ordered {e u : Events} {r : Record} (entered : e.Enters r u) (h : e.orderedWith 0) :
    u.orderedWith 0 := by
  have own := h.parts r.channel
  cases entered with
  | coalesceQueued value =>
    refine ⟨?_, h.parts, h.nodup, h.waits, ?_, ?_⟩
    · exact (coalesceIn_length r e.queue).symm ▸ h.bound
    · exact (coalesceIn_length r e.queue).symm ▸ h.full
    · intro x mem
      obtain ⟨old, mem, -, loss⟩ := mem_coalesceIn mem
      exact loss ▸ h.losses old mem
  | coalesceHeld value =>
    have empty : coalesceIn r (e.del r.channel).held = [] ↔ (e.del r.channel).held = [] := by
      rw [← List.length_eq_zero_iff, coalesceIn_length, List.length_eq_zero_iff]
    refine h.setDel ⟨?_, ?_, own.loss, fun none => own.noLoss (empty.mp none)⟩ empty
    · exact (coalesceIn_length r (e.del r.channel).held).symm ▸ own.length
    · intro x mem
      obtain ⟨old, mem, channel, -⟩ := mem_coalesceIn mem
      exact channel.trans (own.channel old mem)
  | stage v inFlight => exact h.setMarks _ _ _
  | append passes some room =>
    refine h.setDel ⟨?_, ?_, own.loss, fun none => absurd none (by simp)⟩ (by simp [some])
    · simpa using room
    · intro x mem
      obtain mem | rfl := List.mem_append.mp mem |>.imp_right List.mem_singleton.mp
      · exact own.channel x mem
      · rfl
  | discard some =>
    exact h.setDel ⟨own.length, own.channel, Nat.min_le_right _ _, fun none => absurd none some⟩ Iff.rfl
  | enqueue passes none room =>
    have freed := h.setDel (c := r.channel) (d := { e.del r.channel with pendingLoss := 0 })
      ⟨own.length, own.channel, Nat.zero_le _, fun _ => rfl⟩ Iff.rfl
    refine ⟨?_, freed.parts, freed.nodup, freed.waits, fun waiting => absurd (h.deferred_nil room) waiting, ?_⟩
    · simpa [Events.enqueue] using room
    · intro x mem
      obtain mem | rfl := List.mem_append.mp mem |>.imp_right List.mem_singleton.mp
      · exact h.losses x mem
      · exact own.loss
  | hold passes none full =>
    have absent : r.channel ∉ e.deferred := fun mem => (h.waits r.channel).mp mem none
    have bounded : Delivery.boundedFor r.channel { e.del r.channel with held := [r] } :=
      ⟨by simp [Config.heldCapacity], by simp, own.loss, fun empty => absurd empty (by simp)⟩
    refine ⟨h.bound, h.parts_setDel bounded, ?_, ?_, ?_, h.losses⟩
    · exact h.nodup.append (List.nodup_singleton _) (by simpa using absent)
    · intro x
      show x ∈ e.deferred ++ [r.channel] ↔ ((e.setDel r.channel _).del x).held ≠ []
      rw [List.mem_append, List.mem_singleton]
      by_cases own : x = r.channel
      · subst own
        simp
      · rw [Events.del_setDel_other _ _ own, h.waits x]
        simp [own]
    · exact fun _ => Nat.le_antisymm h.bound full

/-! ### Freed slots (R118) -/

/-- A slot served: the channel that waits first gives up a record, and waits on behind the others while it holds more. -/
theorem Events.orderedWith.serveSlot {free : Nat} {e : Events} (h : e.orderedWith (free + 1)) :
    e.serveSlot.orderedWith free := by
  cases first : e.deferred with
  | nil =>
    rw [Events.serveSlot_nil first]
    exact ⟨by have := h.bound; omega, h.parts, h.nodup, h.waits, fun waiting => absurd first waiting, h.losses⟩
  | cons c waiting =>
    have some : (e.del c).held ≠ [] := (h.waits c).mp (by simp [first])
    obtain ⟨r, rest, held⟩ := List.exists_cons_of_ne_nil some
    have own := h.parts c
    have channel : ∀ x ∈ r :: rest, x.channel = c := held ▸ own.channel
    have length : (r :: rest).length ≤ Config.heldCapacity := held ▸ own.length
    have nodup : (c :: waiting).Nodup := first ▸ h.nodup
    have bounded : Delivery.boundedFor c { e.del c with held := rest, pendingLoss := 0 } :=
      ⟨Nat.le_of_succ_le length, fun x mem => channel x (List.mem_cons_of_mem r mem), Nat.zero_le _, fun _ => rfl⟩
    have full := h.full (first ▸ List.cons_ne_nil c waiting)
    have taken : e.queue.length + 1 + free = Config.queueCapacity := by omega
    rw [Events.serveSlot_cons first held (channel r List.mem_cons_self)]
    refine ⟨?_, h.parts_setDel bounded, ?_, ?_, fun _ => ?_, ?_⟩
    · simp [taken]
    · show (if rest = [] then waiting else waiting ++ [c]).Nodup
      split
      · exact nodup.of_cons
      · exact nodup.of_cons.append (List.nodup_singleton c) (by simpa using (List.nodup_cons.mp nodup).1)
    · intro x
      show x ∈ (if rest = [] then waiting else waiting ++ [c]) ↔ ((e.setDel c _).del x).held ≠ []
      have absent := (List.nodup_cons.mp nodup).1
      by_cases at_c : x = c
      · subst at_c
        rw [Events.del_setDel_same]
        split <;> simp_all
      · have waits : x ∈ waiting ↔ (e.del x).held ≠ [] := by
          rw [← h.waits x, first, List.mem_cons]
          exact (or_iff_right at_c).symm
        rw [Events.del_setDel_other _ _ at_c, ← waits]
        split <;> simp [at_c]
    · simp [taken]
    · intro x mem
      obtain mem | rfl := List.mem_append.mp mem |>.imp_right List.mem_singleton.mp
      · exact h.losses x mem
      · exact own.loss

/-- The records taken leave as many free slots (R117). -/
theorem Events.orderedWith.taken {e : Events} (h : e.orderedWith 0) : e.taken.orderedWith e.head.length := by
  have removed : (e.queue.drop Config.recordsPerFrame).length + e.head.length = e.queue.length := by
    rw [Events.head, Nat.add_comm, ← List.length_append, List.take_append_drop]
  have dropped : ({ e with queue := e.queue.drop Config.recordsPerFrame } : Events).orderedWith e.head.length :=
    ⟨removed.symm ▸ h.bound, h.parts, h.nodup, h.waits, fun waiting => removed.trans (h.full waiting),
      fun r mem => h.losses r (List.mem_of_mem_drop mem)⟩
  exact dropped.congr e.taken_queue e.taken_deferred (fun c => by rw [e.del_taken]; rfl) fun c => by rw [e.del_taken]; rfl

theorem Events.orderedWith.take {e : Events} (h : e.orderedWith 0) : e.take.orderedWith 0 :=
  Events.serve_keeps (I := Events.orderedWith) (fun _ _ h => h.serveSlot) _ _ h.taken

/-! ### Releases, deliveries, the resync (R120, R122) -/

theorem Events.orderedWith.enter {e : Events} (h : e.orderedWith 0) (r : Record) : (e.enter r).orderedWith 0 :=
  (e.enters r).keeps_ordered h

theorem Events.orderedWith.unstage {e : Events} (h : e.orderedWith 0) (c : ChanNo) : (e.unstage c).orderedWith 0 := by
  obtain ⟨-, same⟩ | ⟨r, -, entered⟩ := e.unstage_cases c
  · exact same.symm ▸ h
  · exact entered.symm ▸ (h.setMarks c _ none).enter r

theorem Events.orderedWith.deliver {e : Events} (h : e.orderedWith 0) (r : Record) : (e.deliver r).orderedWith 0 := by
  unfold Events.deliver
  split
  · exact (h.setMarks r.channel false _).unstage r.channel
  · exact h

theorem Events.orderedWith.clearFlags {e : Events} (h : e.orderedWith 0) : e.clearFlags.orderedWith 0 :=
  h.congr rfl rfl (fun c => by rw [Events.del_clearFlags]) fun c => by rw [Events.del_clearFlags]

theorem Events.initial_ordered : Events.initial.orderedWith 0 where
  bound := by decide
  parts c := by
    rw [Events.del_initial]
    exact ⟨by decide, by simp [Delivery.initial], by decide, fun _ => rfl⟩
  nodup := List.nodup_nil
  waits c := by
    rw [Events.del_initial]
    simp [Events.initial, Delivery.initial]
  full waiting := absurd rfl waiting
  losses := by simp [Events.initial]

theorem keptOnPath_ordered : KeptOnPath fun e _ => e.orderedWith 0 where
  enter _ _ r h := h.enter r
  take _ _ h := h.take
  deliver _ r _ h := h.deliver r
  resync _ _ h := List.foldlRecOn _ _ h.clearFlags fun _ h c _ => h.unstage c
  initial := Events.initial_ordered

/-- Settles O56: the entry of a record, a take with the slots it frees, and the release of a staged value keep the
conditions. -/
theorem stepKeepsEventsOrdered : Obligations.StepKeepsEventsOrdered := fun s t h stepped =>
  t.events.ordered_iff.mpr (keptOnPath_ordered.keeps_step (s.events.ordered_iff.mp h) stepped)

end Sys2Proof.Machine
end

section
/-! Every step keeps at most one VALUE of each channel in the event path, the value-in-flight flag set exactly while it lies
in the Replay Buffer, and a staged value only under the flag (R108, R115). -/

namespace Sys2Proof.Machine

/-! ### The conditions, while staged values are still to be released -/

/-- How many VALUE records of channel `c` lie in queue and Held list, and among the records sent. -/
def Events.valuesIn (e : Events) (sent : List Record) (c : ChanNo) : Nat :=
  e.queue.countP (Record.isValueOf c) + (e.del c).held.countP (Record.isValueOf c) + sent.countP (Record.isValueOf c)

theorem Events.valuesIn_cons (e : Events) (r : Record) (sent : List Record) (c : ChanNo) :
    e.valuesIn (r :: sent) c = e.valuesIn sent c + if r.isValueOf c then 1 else 0 := by
  rw [Events.valuesIn, List.countP_cons, ← Nat.add_assoc]
  rfl

/-- The conditions of R108 and R115 on events and sent records, while the staged values of the channels in `staging` are
still to be released: a flag cleared may have left them without it. -/
structure Events.oneValueWith (staging : List ChanNo) (e : Events) (sent : List Record) : Prop where
  one : ∀ c, e.valuesIn sent c ≤ 1
  flag : ∀ c, (e.del c).inFlight = sent.any (Record.isValueOf c)
  staged : ∀ c, (e.del c).staged.isSome = true → (e.del c).inFlight = true ∨ c ∈ staging

theorem State.oneValueEach_iff (s : State) : s.oneValueEach ↔ s.events.oneValueWith [] s.inReplay := by
  have values : ∀ c, s.valuesOf c = s.events.valuesIn s.inReplay c := fun c => by
    simp only [State.valuesOf, Events.valuesIn, List.countP_eq_length_filter]
  constructor
  · intro h
    refine ⟨fun c => ?_, fun c => ?_, fun c some => ?_⟩ <;> obtain ⟨one, flag, staged⟩ := h c
    · exact values c ▸ one
    · exact Bool.eq_iff_iff.mpr flag
    · exact .inl (staged some)
  · intro h c
    exact ⟨(values c).symm ▸ h.one c, Bool.eq_iff_iff.mp (h.flag c), fun some =>
      (h.staged c some).resolve_right List.not_mem_nil⟩

section
variable {staging : List ChanNo} {e : Events} {sent : List Record} (h : e.oneValueWith staging sent)
include h

/-- A VALUE that none of cases 1 to 3 of R109 takes is the first of its channel in the event path (R115). -/
theorem Events.oneValueWith.none_of_passes {r : Record} {c : ChanNo} (passes : e.passes r)
    (value : r.isValueOf c = true) : e.valuesIn sent c = 0 := by
  obtain ⟨isValue, rfl⟩ := (r.isValueOf_iff c).mp value
  obtain ⟨queue, held, inFlight⟩ := passes isValue
  have gone : sent.any (Record.isValueOf r.channel) = false := (h.flag r.channel).symm.trans inFlight
  have zero : ∀ l : List Record, (∀ x ∈ l, x.isValueOf r.channel = false) → l.countP (Record.isValueOf r.channel) = 0 :=
    fun l none => List.countP_eq_zero.mpr fun x mem => by simp [none x mem]
  rw [Events.valuesIn, zero _ queue, zero _ held, zero _ (by simpa using gone)]

/-- Events that hold the VALUEs of before, under flags and staged values as before. -/
theorem Events.oneValueWith.congr {u : Events} (values : ∀ c, u.valuesIn sent c = e.valuesIn sent c)
    (marks : ∀ c, (u.del c).inFlight = (e.del c).inFlight ∧ (u.del c).staged = (e.del c).staged) :
    u.oneValueWith staging sent where
  one c := values c ▸ h.one c
  flag c := (marks c).1.trans (h.flag c)
  staged c := by rw [(marks c).1, (marks c).2]; exact h.staged c

/-- Events that hold one record more, which none of cases 1 to 3 of R109 takes. -/
theorem Events.oneValueWith.gains {u : Events} {r : Record} (passes : e.passes r)
    (values : ∀ c, u.valuesIn sent c = e.valuesIn sent c + if r.isValueOf c then 1 else 0)
    (marks : ∀ c, (u.del c).inFlight = (e.del c).inFlight ∧ (u.del c).staged = (e.del c).staged) :
    u.oneValueWith staging sent where
  one c := by
    rw [values]
    split
    · rw [h.none_of_passes passes (by assumption)]
    · exact h.one c
  flag c := (marks c).1.trans (h.flag c)
  staged c := by rw [(marks c).1, (marks c).2]; exact h.staged c

end

/-! ### Delivery parts written -/

section
variable (e : Events) {c : ChanNo} {d : Delivery}

theorem Events.marks_setDel (inFlight : d.inFlight = (e.del c).inFlight) (staged : d.staged = (e.del c).staged)
    (x : ChanNo) :
    ((e.setDel c d).del x).inFlight = (e.del x).inFlight ∧ ((e.setDel c d).del x).staged = (e.del x).staged := by
  by_cases own : x = c
  · subst own
    rw [Events.del_setDel_same]
    exact ⟨inFlight, staged⟩
  · rw [Events.del_setDel_other _ _ own]
    exact ⟨rfl, rfl⟩

theorem Events.heldValues_setDel
    (held : d.held.countP (Record.isValueOf c) = (e.del c).held.countP (Record.isValueOf c)) (x : ChanNo) :
    ((e.setDel c d).del x).held.countP (Record.isValueOf x) = (e.del x).held.countP (Record.isValueOf x) := by
  by_cases own : x = c
  · subst own
    rw [Events.del_setDel_same, held]
  · rw [Events.del_setDel_other _ _ own]

theorem Events.valuesIn_setDel (held : d.held.countP (Record.isValueOf c) = (e.del c).held.countP (Record.isValueOf c))
    (sent : List Record) (x : ChanNo) : (e.setDel c d).valuesIn sent x = e.valuesIn sent x := by
  rw [Events.valuesIn, e.heldValues_setDel held]
  rfl

/-- A delivery part written with the Held list it had. -/
theorem Events.valuesIn_setMarks (c : ChanNo) (loss : Nat) (inFlight : Bool) (staged : Option Staged)
    (sent : List Record) (x : ChanNo) :
    (e.setDel c { held := (e.del c).held, pendingLoss := loss, inFlight := inFlight, staged := staged }).valuesIn sent x =
      e.valuesIn sent x := e.valuesIn_setDel (d := ⟨_, loss, inFlight, staged⟩) rfl sent x

/-- A Held list written that has one record of its channel more than `held` had. -/
theorem Events.heldValues_setDel_gains {r : Record} (channel : r.channel = c)
    (held : d.held.countP (Record.isValueOf c) =
      (e.del c).held.countP (Record.isValueOf c) + if r.isValueOf c then 1 else 0) (x : ChanNo) :
    ((e.setDel c d).del x).held.countP (Record.isValueOf x) =
      (e.del x).held.countP (Record.isValueOf x) + if r.isValueOf x then 1 else 0 := by
  by_cases own : x = c
  · subst own
    rw [Events.del_setDel_same, held]
  · rw [Events.del_setDel_other _ _ own, Record.isValueOf_other (channel ▸ own)]
    rfl

end

/-! ### Record entry (R109–R112, R115) -/

theorem Events.Enters.keeps_oneValue {e u : Events} {r : Record} (entered : e.Enters r u) {staging : List ChanNo}
    {sent : List Record} (h : e.oneValueWith staging sent) : u.oneValueWith staging sent := by
  cases entered with
  | coalesceQueued value =>
    refine h.congr (fun c => ?_) fun _ => ⟨rfl, rfl⟩
    show (coalesceIn r e.queue).countP _ + _ + _ = _
    rw [countP_coalesceIn value]
    rfl
  | coalesceHeld value =>
    exact h.congr (e.valuesIn_setDel (countP_coalesceIn value _ _) sent) (e.marks_setDel rfl rfl)
  | stage v inFlight =>
    refine ⟨fun c => le_of_eq_of_le (e.valuesIn_setMarks _ _ _ _ sent c) (h.one c), fun c => ?_, fun c some => ?_⟩
    · rw [← h.flag c]
      by_cases own : c = r.channel
      · subst own
        rw [Events.del_setDel_same]
      · rw [Events.del_setDel_other _ _ own]
    · by_cases own : c = r.channel
      · subst own
        rw [Events.del_setDel_same]
        exact .inl inFlight
      · rw [Events.del_setDel_other _ _ own] at some ⊢
        exact h.staged c some
  | append passes some room =>
    refine h.gains passes (fun c => ?_) (e.marks_setDel rfl rfl)
    rw [Events.valuesIn, e.heldValues_setDel_gains (r := r) rfl (by rw [List.countP_append, List.countP_singleton])]
    show _ = _ + _ + _ + _
    rw [← Nat.add_assoc, Nat.add_right_comm]
    rfl
  | discard some =>
    exact h.congr (fun c => e.valuesIn_setMarks _ _ _ _ sent c) (e.marks_setDel rfl rfl)
  | enqueue passes none room =>
    rw [Events.enqueue_eq]
    refine h.gains passes (fun c => ?_) (e.marks_setDel rfl rfl)
    have held := e.heldValues_setDel (c := r.channel) (d := ⟨_, 0, (e.del r.channel).inFlight, (e.del r.channel).staged⟩)
      rfl c
    show (e.queue ++ [_]).countP _ + ((e.setDel _ ⟨_, _, _, _⟩).del c).held.countP _ + _ = _
    rw [held, List.countP_append, List.countP_singleton, Record.isValueOf_setLoss, Events.valuesIn]
    omega
  | hold passes none full =>
    refine h.gains passes (fun c => ?_) (e.marks_setDel rfl rfl)
    show e.queue.countP _ + ((e.setDel _ _).del c).held.countP _ + _ = _
    rw [e.heldValues_setDel_gains (r := r) rfl (by rw [none, List.countP_singleton]; simp), Events.valuesIn]
    omega

/-! ### A take and the freed slots (R117, R118) -/

section
variable {staging : List ChanNo} {e : Events} {sent : List Record} (h : e.oneValueWith staging sent)
include h

/-- A slot served moves a record from a Held list to the queue. -/
theorem Events.oneValueWith.serveSlot {free : Nat} (ordered : e.orderedWith free) :
    e.serveSlot.oneValueWith staging sent := by
  cases first : e.deferred with
  | nil => exact (Events.serveSlot_nil first).symm ▸ h
  | cons c waiting =>
    have some : (e.del c).held ≠ [] := (ordered.waits c).mp (by simp [first])
    obtain ⟨r, rest, held⟩ := List.exists_cons_of_ne_nil some
    have channel : r.channel = c := (ordered.parts c).channel r (by simp [held])
    rw [Events.serveSlot_cons first held channel]
    refine h.congr (fun x => ?_) (e.marks_setDel rfl rfl)
    show (e.queue ++ [_]).countP _ + ((e.setDel _ _).del x).held.countP _ + _ = _
    rw [List.countP_append, List.countP_singleton, Record.isValueOf_setLoss, Events.valuesIn]
    by_cases own : x = c
    · subst own
      rw [Events.del_setDel_same, held, List.countP_cons]
      dsimp only
      omega
    · rw [Events.del_setDel_other _ _ own, Record.isValueOf_other (channel ▸ own)]
      rfl

/-- The records taken count among the records sent, and the flags follow them (R117). -/
theorem Events.oneValueWith.taken : e.taken.oneValueWith staging (sent ++ e.head) where
  one c := by
    have split : e.queue.countP (Record.isValueOf c) =
        e.head.countP (Record.isValueOf c) + (e.queue.drop Config.recordsPerFrame).countP (Record.isValueOf c) := by
      rw [Events.head, ← List.countP_append, List.take_append_drop]
    have before := h.one c
    rw [Events.valuesIn] at before ⊢
    rw [e.taken_queue, e.del_taken, List.countP_append]
    dsimp only
    omega
  flag c := by rw [e.del_taken, List.any_append, ← h.flag c]
  staged c := by
    rw [e.del_taken]
    exact fun some => (h.staged c some).imp_left fun inFlight => by rw [inFlight, Bool.true_or]

theorem Events.oneValueWith.take (ordered : e.orderedWith 0) : e.take.oneValueWith staging (sent ++ e.head) :=
  (Events.serve_keeps (I := fun free u => u.orderedWith free ∧ u.oneValueWith staging (sent ++ e.head))
    (fun _ _ both => ⟨both.1.serveSlot, both.2.serveSlot both.1⟩) _ _ ⟨ordered.taken, h.taken⟩).2

theorem Events.oneValueWith.enter (r : Record) : (e.enter r).oneValueWith staging sent :=
  (e.enters r).keeps_oneValue h

end

/-! ### Releases, deliveries, the resync (R115, R120, R122) -/

section
variable {staging : List ChanNo} {e : Events} {sent : List Record}

/-- A channel whose staged value is released waits for its release no more. -/
theorem Events.oneValueWith.unstage {c : ChanNo} (h : e.oneValueWith (c :: staging) sent) :
    (e.unstage c).oneValueWith staging sent := by
  obtain ⟨none, same⟩ | ⟨r, -, entered⟩ := e.unstage_cases c
  · rw [same]
    refine ⟨h.one, h.flag, fun x some => (h.staged x some).imp_right fun mem => ?_⟩
    obtain rfl | mem := List.mem_cons.mp mem
    · rw [none] at some
      cases some
    · exact mem
  · rw [entered]
    refine Events.oneValueWith.enter
      ⟨fun x => le_of_eq_of_le (e.valuesIn_setMarks _ _ _ _ sent x) (h.one x), fun x => ?_, fun x some => ?_⟩ r
    · rw [← h.flag x]
      by_cases own : x = c
      · subst own
        rw [Events.del_setDel_same]
      · rw [Events.del_setDel_other _ _ own]
    · by_cases own : x = c
      · subst own
        rw [Events.del_setDel_same] at some
        cases some
      · rw [Events.del_setDel_other _ _ own] at some ⊢
        exact (h.staged x some).imp_right fun mem => (List.mem_cons.mp mem).resolve_left own

/-- The flag of a delivered VALUE is cleared, which leaves its channel's staged value to be released. -/
theorem Events.oneValueWith.clearFlag {r : Record} (h : e.oneValueWith [] (r :: sent)) (value : r.isValue = true) :
    (e.setDel r.channel { e.del r.channel with inFlight := false }).oneValueWith [r.channel] sent := by
  refine ⟨fun c => le_of_eq_of_le (e.valuesIn_setMarks _ _ _ _ sent c) ?_, fun c => ?_, fun c some => ?_⟩
  · exact (Nat.le_add_right _ _).trans (e.valuesIn_cons r sent c ▸ h.one c)
  · by_cases own : c = r.channel
    · subst own
      have before := h.one r.channel
      rw [e.valuesIn_cons, Events.valuesIn, if_pos ((r.isValueOf_iff _).mpr ⟨value, rfl⟩)] at before
      have gone : sent.countP (Record.isValueOf r.channel) = 0 := by omega
      rw [Events.del_setDel_same]
      exact (List.any_eq_false.mpr (List.countP_eq_zero.mp gone)).symm
    · rw [Events.del_setDel_other _ _ own, h.flag c, List.any_cons, Record.isValueOf_other own, Bool.false_or]
  · by_cases own : c = r.channel
    · exact .inr (List.mem_singleton.mpr own)
    · rw [Events.del_setDel_other _ _ own] at some ⊢
      exact .inl ((h.staged c some).resolve_right List.not_mem_nil)

theorem Events.oneValueWith.deliver {r : Record} (h : e.oneValueWith [] (r :: sent)) :
    (e.deliver r).oneValueWith [] sent := by
  unfold Events.deliver
  split
  · exact (h.clearFlag (by assumption)).unstage
  · rename_i other
    have none : ∀ c, r.isValueOf c = false := fun c => by
      rw [Record.isValueOf, Bool.eq_false_of_not_eq_true other, Bool.false_and]
    refine ⟨fun c => ?_, fun c => ?_, h.staged⟩
    · have before := h.one c
      rwa [e.valuesIn_cons, none c] at before
    · rw [h.flag c, List.any_cons, none c, Bool.false_or]

/-- With the Replay Buffer emptied and every flag cleared, every staged value is left to be released. -/
theorem Events.oneValueWith.clearFlags (h : e.oneValueWith [] sent) : e.clearFlags.oneValueWith allChannels [] where
  one c := by
    have before := h.one c
    rw [Events.valuesIn] at before ⊢
    rw [Events.del_clearFlags]
    show e.queue.countP _ + _ + 0 ≤ 1
    dsimp only
    omega
  flag c := by rw [Events.del_clearFlags]; rfl
  staged c _ := .inr (mem_allChannels c)

theorem Events.oneValueWith.unstageAll (h : e.oneValueWith staging sent) :
    (staging.foldl Events.unstage e).oneValueWith [] sent := by
  induction staging generalizing e with
  | nil => exact h
  | cons c staging ih => exact ih h.unstage

end

theorem Events.initial_oneValue : Events.initial.oneValueWith [] [] where
  one c := by
    rw [Events.valuesIn, Events.del_initial]
    exact Nat.zero_le 1
  flag c := by rw [Events.del_initial]; rfl
  staged c := by rw [Events.del_initial]; exact fun some => nomatch some

theorem keptOnPath_oneValue : KeptOnPath fun e sent => e.orderedWith 0 ∧ e.oneValueWith [] sent where
  enter _ _ r h := ⟨h.1.enter r, h.2.enter r⟩
  take _ _ h := ⟨h.1.take, h.2.take h.1⟩
  deliver _ r _ h := ⟨h.1.deliver r, h.2.deliver⟩
  resync e sent h := ⟨keptOnPath_ordered.resync e sent h.1, h.2.clearFlags.unstageAll⟩
  initial := ⟨Events.initial_ordered, Events.initial_oneValue⟩

/-- Settles O57: a record moves along the event path with its flag, and enters beside no other VALUE of its channel. -/
theorem stepKeepsOneValueEach : Obligations.StepKeepsOneValueEach := fun s t ordered one stepped =>
  t.oneValueEach_iff.mpr
    (keptOnPath_oneValue.keeps_step ⟨s.events.ordered_iff.mp ordered, s.oneValueEach_iff.mp one⟩ stepped).2

end Sys2Proof.Machine
end

section
/-! The cases of record entry, one by one (R109–R114), and records handed over with the causes they report (R102, R104,
R178). -/

namespace Sys2Proof.Machine

/-! ### The part after a record's entry (R109, R113) -/

section
variable (s : State) (r : Record)

/-- A record that is discarded is counted, and LOSS is reported (R113). -/
theorem State.enterRecord_of_discards (h : s.events.discards r) :
    s.enterRecord r = { s with
      events := s.events.enter r, counters := s.counters.raiseBy .heldDiscards 1, alert := s.alert.report .loss } :=
  if_pos (Events.entryCase_discard.mpr h)

/-- Any other record changes the event path only. -/
theorem State.enterRecord_of_not_discards (h : ¬ s.events.discards r) :
    s.enterRecord r = { s with events := s.events.enter r } :=
  if_neg fun discard => h (Events.entryCase_discard.mp discard)

/-- A record that falls under another case than the discard (R109). -/
theorem State.enterRecord_of_case {x : EntryCase} (h : s.events.entryCase r = x) (other : x ≠ .discard) :
    s.enterRecord r = { s with events := s.events.enter r } := if_neg (h ▸ other)

end

/-! ### Coalescing (R110, R111) -/

/-- A VALUE takes the place of the one VALUE of its channel: the records before and after it stay. -/
theorem coalesceIn_split {c : ChanNo} {v : Nat} {tier : Tier} {time : Tick} {old : Record} {before after : List Record}
    (value : old.isValueOf c = true) (only : ∀ r ∈ before ++ after, r.isValueOf c = false) :
    coalesceIn { kind := .value v tier, channel := c, time := time, loss := 0 } (before ++ old :: after) =
      before ++ { kind := .value v tier, channel := c, time := time, loss := old.loss } :: after := by
  have stays : ∀ l : List Record, (∀ r ∈ l, r.isValueOf c = false) →
      coalesceIn { kind := .value v tier, channel := c, time := time, loss := 0 } l = l := fun l none =>
    (List.map_congr_left fun r mem => if_neg (by simp [none r mem])).trans (List.map_id l)
  obtain ⟨-, rfl⟩ := (old.isValueOf_iff c).mp value
  have own := List.forall_mem_append.mp only
  rw [coalesceIn, List.map_append, List.map_cons, if_pos value]
  exact congrArg₂ _ (stays before own.1) (congrArg _ (stays after own.2))

section
variable {e : Events} {c : ChanNo} {v : Nat} {tier : Tier} {time : Tick}

theorem Events.entryCase_queued {x : Record} (mem : x ∈ e.queue) (value : x.isValueOf c = true) :
    e.entryCase { kind := .value v tier, channel := c, time := time, loss := 0 } = .coalesceQueued :=
  if_pos (List.any_eq_true.mpr ⟨x, mem, value⟩)

variable (queue : ∀ x ∈ e.queue, x.isValueOf c = false)
include queue

theorem Events.entryCase_held {x : Record} (mem : x ∈ (e.del c).held) (value : x.isValueOf c = true) :
    e.entryCase { kind := .value v tier, channel := c, time := time, loss := 0 } = .coalesceHeld :=
  (if_neg (by simpa using queue)).trans (if_pos (List.any_eq_true.mpr ⟨x, mem, value⟩))

theorem Events.entryCase_inFlight (held : ∀ x ∈ (e.del c).held, x.isValueOf c = false)
    (inFlight : (e.del c).inFlight = true) :
    e.entryCase { kind := .value v tier, channel := c, time := time, loss := 0 } = .stage v tier :=
  (if_neg (by simpa using queue)).trans ((if_neg (by simpa using held)).trans (if_pos inFlight))

end

/-! ### Records that pass cases 1 to 3 (R113, R114) -/

section
variable {s : State} {r : Record} (passes : s.events.passes r)
include passes

theorem State.enterRecord_append (some : (s.events.del r.channel).held ≠ [])
    (room : (s.events.del r.channel).held.length < 3) :
    s.enterRecord r = { s with
      events := s.events.setDel r.channel
        { s.events.del r.channel with held := (s.events.del r.channel).held ++ [r] } } := by
  have late : s.events.entryCase r = .append :=
    (Events.entryCase_of_passes passes).trans ((if_pos some).trans (if_pos room))
  rw [State.enterRecord_of_case s r late nofun, Events.enter_append late]

theorem State.enterRecord_discard (full : 3 ≤ (s.events.del r.channel).held.length) :
    s.enterRecord r = { s with
      events := s.events.setDel r.channel
        { s.events.del r.channel with pendingLoss := min ((s.events.del r.channel).pendingLoss + 1) 15 }
      counters := s.counters.raiseBy .heldDiscards 1
      alert := s.alert.report .loss } := by
  have discards : s.events.discards r := ⟨full, passes⟩
  rw [State.enterRecord_of_discards s r discards, Events.enter_discard (Events.entryCase_discard.mpr discards)]
  rfl

theorem State.enterRecord_enqueue (none : (s.events.del r.channel).held = []) (room : s.events.queue.length < 96) :
    s.enterRecord r = { s with events := s.events.enqueue r } := by
  have late : s.events.entryCase r = .enqueue :=
    (Events.entryCase_of_passes passes).trans ((if_neg (not_not_intro none)).trans (if_pos room))
  rw [State.enterRecord_of_case s r late nofun, Events.enter_enqueue late]

theorem State.enterRecord_hold (none : (s.events.del r.channel).held = []) (full : 96 ≤ s.events.queue.length) :
    s.enterRecord r = { s with
      events := { s.events.setDel r.channel { s.events.del r.channel with held := [r] } with
        deferred := s.events.deferred ++ [r.channel] } } := by
  have late : s.events.entryCase r = .hold :=
    (Events.entryCase_of_passes passes).trans ((if_neg (not_not_intro none)).trans (if_neg (Nat.not_lt.mpr full)))
  rw [State.enterRecord_of_case s r late nofun, Events.enter_hold late]

end

/-! ### The statements -/

/-- Settles O24: the queue is the only place that changes. -/
theorem queuedValueCoalesces : Obligations.QueuedValueCoalesces := by
  intro s c v tier time old before after queue value only
  have queued : s.events.entryCase { kind := .value v tier, channel := c, time := time, loss := 0 } = .coalesceQueued :=
    Events.entryCase_queued (x := old) (by simp [queue]) value
  rw [State.enterRecord_of_case _ _ queued nofun, Events.enter_coalesceQueued queued, queue, coalesceIn_split value only]

/-- Settles O25, by whether the Held list holds a VALUE of its channel. -/
theorem heldValueCoalesces : Obligations.HeldValueCoalesces := by
  intro s c v tier time queue new
  refine ⟨fun old before after held value only => ?_, fun full held inFlight => ?_⟩
  · have coalesced : s.events.entryCase new = .coalesceHeld :=
      Events.entryCase_held queue (x := old) (by simp [held]) value
    rw [State.enterRecord_of_case _ _ coalesced nofun, Events.enter_coalesceHeld coalesced]
    show { s with events := s.events.setDel c { s.events.del c with held := coalesceIn new (s.events.del c).held } } = _
    rw [held, coalesceIn_split value only]
  · exact State.enterRecord_discard (fun _ => ⟨queue, held, inFlight⟩) full.ge

/-- Settles O26: the staged value is the only thing that changes. -/
theorem valueInFlightStages : Obligations.ValueInFlightStages := by
  intro s c v tier time queue held inFlight
  have staged : s.events.entryCase { kind := .value v tier, channel := c, time := time, loss := 0 } = .stage v tier :=
    Events.entryCase_inFlight queue held inFlight
  rw [State.enterRecord_of_case _ _ staged nofun, Events.enter_stage staged]

/-- Settles O27, by the Held list's length, and by the queue's where the list is empty. -/
theorem recordEntersQueueOrHeldList : Obligations.RecordEntersQueueOrHeldList := fun _ _ passes =>
  ⟨State.enterRecord_append passes, State.enterRecord_discard passes, State.enterRecord_enqueue passes,
    State.enterRecord_hold passes⟩

/-! ### Records handed over (R102, R104) -/

/-- The alert once the cause of a record's kind is reported, where the kind is urgent (R104). -/
def Alert.reportKind (a : Alert) (k : RecordKind) : Alert :=
  match k.urgent with
  | some x => a.report x
  | none => a

/-- A record handed over: counted, its kind reported, entered. -/
theorem State.hand_eq (s : State) (c : ChanNo) (k : RecordKind) :
    s.hand c k = State.enterRecord
      { s with counters := s.counters.raiseBy .recordsCreated 1, alert := s.alert.reportKind k }
      { kind := k, channel := c, time := s.time, loss := 0 } := by
  unfold State.hand Alert.reportKind
  cases k.urgent <;> rfl

/-- What a report does, mode by mode (R178). -/
theorem Alert.report_line (a : Alert) (x : Cause) :
    (a.report x).mode = a.mode ∧ (a.report x).hold = a.hold ∧
    (a.mode = .pulse → (a.report x).line = true ∧ (a.report x).holdTimer = some a.hold) ∧
    (a.mode = .latch → (a.report x).line = true ∧ (a.report x).holdTimer = a.holdTimer) ∧
    (a.mode = .off → (a.report x).line = a.line ∧ (a.report x).holdTimer = a.holdTimer) := by
  obtain ⟨mode, hold, line, holdTimer, causes⟩ := a
  cases mode <;> simp [Alert.report]

/-- Settles O28: counts and reports by whether the record is discarded, the line by the alert mode. -/
theorem recordsCountedAndCausesReported : Obligations.RecordsCountedAndCausesReported := by
  refine ⟨?_, State.handAll_events, fun a x y => ⟨?_, a.report_line x⟩⟩
  · intro s c k r counted reported
    have alert : s.alert.reportKind k = reported := by cases k <;> rfl
    have handed := s.hand_eq c k
    rw [alert] at handed
    exact ⟨fun enters => handed.trans (State.enterRecord_of_not_discards _ r enters),
      fun discards => handed.trans (State.enterRecord_of_discards _ r discards), rfl, rfl⟩
  · rw [Alert.report_causes, CauseSet.has_insert, Bool.or_comm]

end Sys2Proof.Machine
end

section
/-! A take and the slots it frees (R117, R118), acknowledged records (R113, R120), and the resync (R122, R148). -/

namespace Sys2Proof.Machine

/-! ### Takes (R117, R118) -/

/-- While no channel waits, freed slots stay free. -/
theorem Events.serve_nil {e : Events} (none : e.deferred = []) (k : Nat) : Events.serve k e = e := by
  induction k with
  | zero => rfl
  | succ k ih => rw [Events.serve, Events.serveSlot_nil none, ih]

/-- Settles O29: a take is the records removed and flagged, then as many slots served. -/
theorem takeFlagsAndServes : Obligations.TakeFlagsAndServes := by
  refine ⟨fun e none => ?_, fun e => ⟨e.taken, e.taken_queue, e.taken_deferred, e.del_taken, ?_⟩,
    fun e => Events.serveSlot_nil, fun e c waiting r rest first held channel => ?_⟩
  · have same : e.take = e.taken := Events.serve_nil (e.taken_deferred.trans none) _
    rw [same]
    exact ⟨e.taken_queue, e.taken_deferred.trans none, e.del_taken⟩
  · rw [Events.take_eq, Events.serve_eq_foldl, Events.head, List.length_take]
    rfl
  · rw [Events.serveSlot_cons first held channel]
    exact ⟨rfl, rfl, e.del_setDel_same c _, fun d other => e.del_setDel_other _ other⟩

/-! ### Acknowledged records (R120) -/

theorem Events.setDel_setDel (e : Events) (c : ChanNo) (d d' : Delivery) : (e.setDel c d).setDel c d' = e.setDel c d' := by
  simp [Events.setDel]

section
variable {s : State} {r : Record}

theorem State.recordDelivered_of_other (other : r.isValue = false) : s.recordDelivered r = s := by
  rw [State.recordDelivered, other]
  rfl

/-- A VALUE whose channel holds no staged value: its flag is cleared. -/
theorem State.recordDelivered_unstaged (value : r.isValue = true) (none : (s.events.del r.channel).staged = none) :
    s.recordDelivered r = { s with
      events := s.events.setDel r.channel { s.events.del r.channel with inFlight := false, staged := .none } } := by
  simp only [State.recordDelivered, value, if_true, State.releaseStaged, Events.del_setDel_same, none]

/-- A VALUE whose channel holds a staged value: its flag is cleared, and the staged value enters. -/
theorem State.recordDelivered_staged {v : Staged} (value : r.isValue = true)
    (staged : (s.events.del r.channel).staged = some v) :
    s.recordDelivered r = State.enterRecord
      { s with events := s.events.setDel r.channel { s.events.del r.channel with inFlight := false, staged := .none } }
      { kind := .value v.value v.tier, channel := r.channel, time := v.time, loss := 0 } := by
  simp only [State.recordDelivered, value, if_true, State.releaseStaged, Events.del_setDel_same, staged,
    Events.setDel_setDel]

end

/-- Settles O30, by the record's kind and by what its channel has staged. -/
theorem deliveredValueReleasesStaged : Obligations.DeliveredValueReleasesStaged := by
  refine ⟨?_, fun s => ⟨rfl, fun oldest newer => ?_⟩⟩
  · intro s r d cleared
    exact ⟨State.recordDelivered_of_other, State.recordDelivered_unstaged, fun v value staged =>
      ⟨fun enters => (State.recordDelivered_staged value staged).trans (State.enterRecord_of_not_discards _ _ enters),
        fun discards => (State.recordDelivered_staged value staged).trans (State.enterRecord_of_discards _ _ discards)⟩⟩
  · exact State.framesDelivered_cons s oldest newer

end Sys2Proof.Machine
end

section
/-! RESYNC (R102, R113, R122, R148, R163). -/

namespace Sys2Proof.Machine

/-! ### The counters and the alert at record entry (R102, R113) -/

/-- Of the counters, only that of discards at Held lists differs between `s` and `t`. -/
structure CountsDiscards (s t : State) : Prop where
  counts : ∀ k, k ≠ .heldDiscards → t.counters.get k = s.counters.get k
  windows : t.counters.windows = s.counters.windows

theorem CountsDiscards.refl (s : State) : CountsDiscards s s := ⟨fun _ _ => rfl, rfl⟩

theorem CountsDiscards.trans {s t u : State} (h : CountsDiscards s t) (k : CountsDiscards t u) : CountsDiscards s u :=
  ⟨fun j other => (k.counts j other).trans (h.counts j other), k.windows.trans h.windows⟩

/-- The two parts agree in all that the entry of a record not counted as created reads and writes: event path, alert, and the
discards at Held lists. -/
structure SameLosses (s t : State) : Prop where
  events : s.events = t.events
  alert : s.alert = t.alert
  discards : s.counters.get .heldDiscards = t.counters.get .heldDiscards

theorem countsDiscards_enterRecord (s : State) (r : Record) : CountsDiscards s (s.enterRecord r) := by
  by_cases discards : s.events.discards r
  · rw [State.enterRecord_of_discards s r discards]
    exact ⟨fun k other => CounterBank.get_raiseBy_other _ _ other, rfl⟩
  · rw [State.enterRecord_of_not_discards s r discards]
    exact ⟨fun _ _ => rfl, rfl⟩

theorem SameLosses.enterRecord {s t : State} (h : SameLosses s t) (r : Record) :
    SameLosses (s.enterRecord r) (t.enterRecord r) := by
  have events : s.events.enter r = t.events.enter r := congrArg (·.enter r) h.events
  by_cases discards : s.events.discards r
  · rw [State.enterRecord_of_discards s r discards, State.enterRecord_of_discards t r (h.events ▸ discards)]
    refine ⟨events, congrArg (·.report .loss) h.alert, ?_⟩
    simp only [CounterBank.get_raiseBy_same, h.discards]
  · rw [State.enterRecord_of_not_discards s r discards, State.enterRecord_of_not_discards t r (h.events ▸ discards)]
    exact ⟨events, h.alert, h.discards⟩

/-! ### Staged values released (R120, R122) -/

theorem State.releaseStaged_none {s : State} {c : ChanNo} (none : (s.events.del c).staged = none) :
    s.releaseStaged c = s := by
  simp only [State.releaseStaged, none]

theorem State.releaseStaged_some {s : State} {c : ChanNo} {v : Staged} (some : (s.events.del c).staged = some v) :
    s.releaseStaged c = State.enterRecord
      { s with events := s.events.setDel c { s.events.del c with staged := .none } }
      { kind := .value v.value v.tier, channel := c, time := v.time, loss := 0 } := by
  simp only [State.releaseStaged, some]

theorem countsDiscards_releaseStaged (s : State) (c : ChanNo) : CountsDiscards s (s.releaseStaged c) := by
  cases staged : (s.events.del c).staged with
  | none => exact (State.releaseStaged_none staged).symm ▸ .refl s
  | some v =>
    rw [State.releaseStaged_some staged]
    have entered := countsDiscards_enterRecord
      { s with events := s.events.setDel c { s.events.del c with staged := .none } }
      { kind := .value v.value v.tier, channel := c, time := v.time, loss := 0 }
    exact ⟨entered.counts, entered.windows⟩

theorem SameLosses.releaseStaged {s t : State} (h : SameLosses s t) (c : ChanNo) :
    SameLosses (s.releaseStaged c) (t.releaseStaged c) := by
  cases staged : (s.events.del c).staged with
  | none => rwa [State.releaseStaged_none staged, State.releaseStaged_none (h.events ▸ staged)]
  | some v =>
    rw [State.releaseStaged_some staged, State.releaseStaged_some (h.events ▸ staged)]
    have unstaged : SameLosses { s with events := s.events.setDel c { s.events.del c with staged := .none } }
        { t with events := t.events.setDel c { t.events.del c with staged := .none } } :=
      ⟨congrArg (fun e => e.setDel c { e.del c with staged := .none }) h.events, h.alert, h.discards⟩
    exact unstaged.enterRecord _

theorem SameLosses.releaseAll {s t : State} (h : SameLosses s t) (l : List ChanNo) :
    SameLosses (l.foldl State.releaseStaged s) (l.foldl State.releaseStaged t) := by
  induction l generalizing s t with
  | nil => exact h
  | cons c l ih => exact ih (h.releaseStaged c)

/-- With no value staged, the releases change nothing. -/
theorem State.releaseAll_none {s : State} (none : ∀ c, (s.events.del c).staged = none) (l : List ChanNo) :
    l.foldl State.releaseStaged s = s := by
  induction l with
  | nil => rfl
  | cons c l ih => rw [List.foldl_cons, State.releaseStaged_none (none c), ih]

/-! ### The delivery parts after the releases (R122) -/

/-- A record of a channel without a value in flight leaves every flag and every staged value as it is. -/
theorem Events.Enters.keeps_marks {e u : Events} {r : Record} (entered : e.Enters r u)
    (clear : (e.del r.channel).inFlight = false) :
    ∀ c, (u.del c).inFlight = (e.del c).inFlight ∧ (u.del c).staged = (e.del c).staged := by
  cases entered with
  | coalesceQueued value => exact fun _ => ⟨rfl, rfl⟩
  | stage v inFlight => exact absurd (inFlight.symm.trans clear) nofun
  | coalesceHeld value => exact e.marks_setDel rfl rfl
  | append passes some room => exact e.marks_setDel rfl rfl
  | discard some => exact e.marks_setDel rfl rfl
  | enqueue passes none room => exact e.marks_setDel rfl rfl
  | hold passes none full => exact e.marks_setDel rfl rfl

/-- The release of a staged value, where its channel's flag is clear: it is staged no more, and no other is. -/
theorem Events.del_unstage {e : Events} {c : ChanNo} (clear : (e.del c).inFlight = false) (x : ChanNo) :
    ((e.unstage c).del x).inFlight = (e.del x).inFlight ∧
    ((e.unstage c).del x).staged = if x = c then none else (e.del x).staged := by
  obtain ⟨none, same⟩ | ⟨r, rfl, entered⟩ := e.unstage_cases c
  · rw [same]
    refine ⟨rfl, ?_⟩
    split
    · rename_i own
      rw [own, none]
    · rfl
  · have marks := (Events.enters _ r).keeps_marks
      (e := e.setDel r.channel { e.del r.channel with staged := none }) (by rw [Events.del_setDel_same]; exact clear) x
    rw [entered, marks.1, marks.2]
    by_cases own : x = r.channel
    · rw [own, Events.del_setDel_same, if_pos rfl]
      exact ⟨rfl, rfl⟩
    · rw [Events.del_setDel_other _ _ own, if_neg own]
      exact ⟨rfl, rfl⟩

/-- Once every flag is clear and every channel with a staged value has released it, none is left. -/
theorem Events.del_unstageAll {e : Events} (l : List ChanNo) (clear : ∀ c, (e.del c).inFlight = false)
    (staged : ∀ c, c ∉ l → (e.del c).staged = none) (x : ChanNo) :
    ((l.foldl Events.unstage e).del x).inFlight = false ∧ ((l.foldl Events.unstage e).del x).staged = none := by
  induction l generalizing e with
  | nil => exact ⟨clear x, staged x List.not_mem_nil⟩
  | cons c l ih =>
    refine ih (fun d => (Events.del_unstage (clear c) d).1.trans (clear d)) fun d other => ?_
    rw [(Events.del_unstage (clear c) d).2]
    split
    · rfl
    · rename_i notFirst
      exact staged d fun mem => (List.mem_cons.mp mem).elim notFirst other

/-! ### The Event Unit's side of a resync (R122) -/

section
variable (s : State) (frames : List EventFrame)

/-- The part that a resync finds when it begins to release staged values: the discarded records counted, every flag clear. -/
def State.resyncBegun : State :=
  { s.raiseBy .resyncDiscards (frames.flatMap (·.records)).length with events := s.events.clearFlags }

theorem State.resyncEvents_eq : s.resyncEvents frames = allChannels.foldl State.releaseStaged (s.resyncBegun frames) := rfl

theorem State.resyncEvents_sameLosses :
    SameLosses (s.resyncEvents frames) (allChannels.foldl State.unstage { s with events := s.events.clearFlags }) := by
  have begun : SameLosses (s.resyncBegun frames) { s with events := s.events.clearFlags } :=
    ⟨rfl, rfl, CounterBank.get_raiseBy_other _ _ (by decide)⟩
  rw [State.resyncEvents_eq]
  exact begun.releaseAll allChannels

theorem countsDiscards_releaseAll (l : List ChanNo) : CountsDiscards s (l.foldl State.releaseStaged s) := by
  induction l generalizing s with
  | nil => exact .refl s
  | cons c l ih => exact (countsDiscards_releaseStaged s c).trans (ih _)

theorem State.resyncEvents_counts : CountsDiscards (s.resyncBegun frames) (s.resyncEvents frames) := by
  rw [State.resyncEvents_eq]
  exact countsDiscards_releaseAll _ _

end

/-! ### The request (R148) -/

/-- The link once a RESYNC has reset it (R148). -/
def Link.resynced (l : Link) : Link :=
  { l with replay := [], credits := 0, roundCount := 0, roundLeft := 0, ackTimer := none, mirror := [] }

section
variable (s : State)

/-- A RESYNC: what the Event Unit makes of it, the Mirror Buffer counted, the link reset. -/
theorem State.applyResync_eq :
    s.applyResync =
      ((s.resyncEvents s.link.replay).raiseBy .mirrorDiscards s.link.mirror.length).modLink fun _ => s.link.resynced := by
  have link := (eventSide_resyncEvents s s.link.replay).link
  unfold State.applyResync
  dsimp only
  rw [resyncEvents_modLink]
  generalize s.resyncEvents s.link.replay = u at link ⊢
  rw [← link]
  rfl

theorem State.applyResync_link : s.applyResync.link = s.link.resynced := by rw [State.applyResync_eq, State.modLink_link]

theorem State.applyResync_counters :
    s.applyResync.counters =
      (s.resyncEvents s.link.replay).counters.raiseBy .mirrorDiscards s.link.mirror.length := by
  rw [State.applyResync_eq, State.modLink_counters, State.raiseBy_counters]

theorem State.applyResync_get {k : GlobalCounter} (other : k ≠ .heldDiscards) :
    s.applyResync.counters.get k =
      ((s.counters.raiseBy .resyncDiscards (s.link.replay.flatMap (·.records)).length).raiseBy .mirrorDiscards
        s.link.mirror.length).get k := by
  have counted : (s.resyncEvents s.link.replay).counters.get k =
      (s.counters.raiseBy .resyncDiscards (s.link.replay.flatMap (·.records)).length).get k :=
    (s.resyncEvents_counts _).counts k other
  rw [State.applyResync_counters, CounterBank.get_raiseBy, CounterBank.get_raiseBy _ .mirrorDiscards, counted]

theorem State.applyResync_get_discarded :
    s.applyResync.counters.get .resyncDiscards =
      satAdd (s.counters.get .resyncDiscards) (s.link.replay.flatMap (·.records)).length := by
  rw [s.applyResync_get (by decide), CounterBank.get_raiseBy_other _ _ (by decide), CounterBank.get_raiseBy_same]

theorem State.applyResync_get_mirror :
    s.applyResync.counters.get .mirrorDiscards = satAdd (s.counters.get .mirrorDiscards) s.link.mirror.length := by
  rw [s.applyResync_get (by decide), CounterBank.get_raiseBy_same, CounterBank.get_raiseBy_other _ _ (by decide)]

theorem State.applyResync_get_other {k : GlobalCounter} (resync : k ≠ .resyncDiscards) (mirror : k ≠ .mirrorDiscards)
    (held : k ≠ .heldDiscards) : s.applyResync.counters.get k = s.counters.get k := by
  rw [s.applyResync_get held, CounterBank.get_raiseBy_other _ _ mirror, CounterBank.get_raiseBy_other _ _ resync]

theorem State.applyResync_losses :
    SameLosses s.applyResync (allChannels.foldl State.unstage { s with events := s.events.clearFlags }) := by
  have losses := s.resyncEvents_sameLosses s.link.replay
  refine ⟨?_, ?_, ?_⟩
  · rw [State.applyResync_eq, State.modLink_events, State.raiseBy_events, losses.events]
  · rw [State.applyResync_eq, State.modLink_alert, State.raiseBy_alert, losses.alert]
  · rw [State.applyResync_counters, CounterBank.get_raiseBy_other _ _ (by decide), losses.discards]

theorem State.applyResync_windows : s.applyResync.counters.windows = s.counters.windows := by
  rw [State.applyResync_counters, CounterBank.raiseBy_windows]
  exact (s.resyncEvents_counts _).windows

theorem State.applyResync_events : s.applyResync.events = allChannels.foldl Events.unstage s.events.clearFlags := by
  rw [State.applyResync_eq, State.modLink_events, State.raiseBy_events, State.resyncEvents_events]

/-- With no value staged, a RESYNC changes of the events the flags only, reports no LOSS and discards nothing at a Held
list. -/
theorem State.applyResync_losses_none (none : ∀ c, (s.events.del c).staged = none) :
    SameLosses s.applyResync { s with events := s.events.clearFlags } := by
  have losses := s.applyResync_losses
  have clear : ∀ c, (({ s with events := s.events.clearFlags } : State).events.del c).staged = .none := fun c =>
    (congrArg Delivery.staged (s.events.del_clearFlags c)).trans (none c)
  rwa [funext₂ State.unstage_eq, State.releaseAll_none clear] at losses

/-- What a RESYNC leaves alone (R148). -/
theorem State.applyResync_frame :
    s.applyResync.power = s.power ∧ s.applyResync.time = s.time ∧ s.applyResync.inlet = s.inlet ∧
    s.applyResync.channels = s.channels ∧ s.applyResync.groups = s.groups ∧ s.applyResync.profiles = s.profiles ∧
    s.applyResync.pending = s.pending := by
  have side := eventSide_resyncEvents s s.link.replay
  rw [State.applyResync_eq]
  generalize s.resyncEvents s.link.replay = u at side ⊢
  exact ⟨side.power, side.time, side.inlet, side.channels, side.groups, side.profiles, side.pending⟩

end

/-- Settles O50: the Event Unit's side by its releases, the counters one by one, the link by its reset. -/
theorem resyncDiscardsFrames : Obligations.ResyncDiscardsFrames := by
  intro s q rest ready command params
  have mgmt : s.applyResync.mgmt = s.mgmt := (sameReceivers_applyResync s).mgmt
  have executed : exec .resync s = .next (s.applyResync.answered q rest .ok []) :=
    exec_accepted ready rfl command (if_pos params) mgmt
  have link := s.applyResync_link
  have losses := s.applyResync_losses
  have events := s.applyResync_events
  have unstaged := s.applyResync_losses_none
  have discarded := s.applyResync_get_discarded
  have mirrored := s.applyResync_get_mirror
  have counted := @State.applyResync_get_other s
  have windows := s.applyResync_windows
  have frame := s.applyResync_frame
  generalize s.applyResync = u at *
  have released := Events.del_unstageAll (e := s.events.clearFlags) allChannels
    (fun c => congrArg Delivery.inFlight (s.events.del_clearFlags c)) fun c other => absurd (mem_allChannels c) other
  refine ⟨_, executed, link, congrArg (·.answered q rest .ok []) mgmt,
    ⟨s.events.clearFlags, rfl, rfl, s.events.del_clearFlags, events, losses.alert, losses.discards⟩, events ▸ released,
    fun none => ?_, discarded, mirrored, fun _ => counted, windows, frame⟩
  have kept := unstaged none
  have cleared : u.events = s.events.clearFlags := kept.events
  have queue : u.events.queue = s.events.clearFlags.queue := congrArg Events.queue cleared
  have deferred : u.events.deferred = s.events.clearFlags.deferred := congrArg Events.deferred cleared
  exact ⟨queue, deferred, kept.alert, kept.discards, fun c =>
    (congrArg (·.del c) cleared).trans (s.events.del_clearFlags c)⟩

end Sys2Proof.Machine
end

section
/-! SUPPORT. What every command but three does to power, alert and the count of frames sent first time: the part runs on, the
alert's relations stand, and the count does not rise (R132, R150, R177, R180). Most commands leave the outlet link and
the Management Unit alone besides. -/

namespace Sys2Proof.Machine

/-! ### The alert (R177–R181) -/

section
variable {a : Alert}

/-- A reported cause asserts the line by the mode, and starts the hold timer in PULSE (R178). -/
theorem Alert.ok.report (ok : a.ok) (x : Cause) : (a.report x).ok := by
  obtain ⟨off, timer, least, most, short⟩ := ok
  unfold Alert.report Alert.ok
  cases mode : a.mode <;> simp_all

/-- The line deasserted, and the hold timer stopped. -/
theorem Alert.ok.quiet (ok : a.ok) (causes : CauseSet) :
    Alert.ok { a with line := false, holdTimer := none, causes := causes } := by
  obtain ⟨-, -, least, most, -⟩ := ok
  exact ⟨fun _ => rfl, by simp, least, most, by simp⟩

/-- A new mode with its hold (the table of R180). -/
theorem Alert.ok.setMode (ok : a.ok) (mode : AlertMode) {hold : Nat} (least : 1 ≤ hold) (most : hold ≤ 255) :
    (a.setMode mode hold).ok := by
  obtain ⟨off, timer, -, -, short⟩ := ok
  unfold Alert.setMode Alert.ok
  cases old : a.mode <;> cases mode <;> cases line : a.line <;> simp_all

/-- One tick of the hold timer. -/
theorem Alert.ok.tick (ok : a.ok) : Alert.ok { a with holdTimer := tickTimer a.holdTimer } := by
  obtain ⟨off, timer, least, most, short⟩ := ok
  refine ⟨off, by simpa [tickTimer] using timer, least, most, fun t mem => ?_⟩
  obtain ⟨k, held, rfl⟩ := Option.map_eq_some_iff.mp mem
  exact (Nat.sub_le k 1).trans (short k held)

end

theorem parseAlert_hold {b0 b1 : Byte} {mode : AlertMode} {hold : Nat} (h : parseAlert b0 b1 = some (mode, hold)) :
    1 ≤ hold ∧ hold ≤ 255 := by
  unfold parseAlert at h
  split at h
  · split at h
    · cases h
    · rename_i nonzero
      cases h
      have := b1.isLt
      have : b1.toNat ≠ 0 := fun zero => nonzero (BitVec.eq_of_toNat_eq zero)
      omega
  · cases h

/-! ### A part that runs on -/

/-- From `s` to `t` the part runs on: power is as it was, the alert's relations stand, and no Event Frame is sent first
time. -/
structure RunsOn (s t : State) : Prop where
  power : t.power = s.power
  alert : s.alert.ok → t.alert.ok
  sent : (t.counters.get .framesSent).toNat ≤ (s.counters.get .framesSent).toNat

/-- The part runs on, and outlet link and Management Unit are as they were. -/
structure OffLink (s t : State) : Prop extends RunsOn s t where
  link : t.link = s.link
  mgmt : t.mgmt = s.mgmt

theorem RunsOn.refl (s : State) : RunsOn s s := ⟨rfl, id, Nat.le_refl _⟩

theorem RunsOn.trans {s t u : State} (h : RunsOn s t) (k : RunsOn t u) : RunsOn s u :=
  ⟨k.power.trans h.power, k.alert ∘ h.alert, k.sent.trans h.sent⟩

theorem OffLink.refl (s : State) : OffLink s s := ⟨.refl s, rfl, rfl⟩

theorem OffLink.trans {s t u : State} (h : OffLink s t) (k : OffLink t u) : OffLink s u :=
  ⟨h.toRunsOn.trans k.toRunsOn, k.link.trans h.link, k.mgmt.trans h.mgmt⟩

/-- Power, alert and counters alone matter. -/
theorem runsOn_of_same {s t : State} (power : t.power = s.power) (alert : t.alert = s.alert)
    (counters : t.counters = s.counters) : RunsOn s t :=
  ⟨power, fun ok => alert ▸ ok, by rw [counters]⟩

theorem offLink_of_same {s t : State} (power : t.power = s.power) (alert : t.alert = s.alert)
    (counters : t.counters = s.counters) (link : t.link = s.link) (mgmt : t.mgmt = s.mgmt) : OffLink s t :=
  ⟨runsOn_of_same power alert counters, link, mgmt⟩

theorem EventSide.runsOn {s t : State} (h : EventSide s t) (counts : CountsDiscards s t) : RunsOn s t :=
  ⟨h.power, h.alert Alert.ok fun _ x ok => ok.report x, by rw [counts.counts .framesSent nofun]⟩

theorem ChannelSide.offLink {P : ChanNo → Prop} {s t : State} (h : ChannelSide P s t) : OffLink s t :=
  ⟨⟨h.power, h.alert Alert.ok fun _ x ok => ok.report x, by rw [h.counts .framesSent nofun nofun]⟩, h.link, h.mgmt⟩

theorem offLink_hand (s : State) (c : ChanNo) (k : RecordKind) : OffLink s (s.hand c k) :=
  (channelSide_hand (P := fun _ => False) s c k).offLink

theorem offLink_raiseBy (s : State) {k : GlobalCounter} (other : k ≠ .framesSent) (n : Nat) : OffLink s (s.raiseBy k n) :=
  ⟨⟨rfl, id, by rw [State.raiseBy_counters, CounterBank.get_raiseBy_other _ _ other.symm]⟩, rfl, rfl⟩

theorem offLink_raise (s : State) {k : GlobalCounter} (other : k ≠ .framesSent) : OffLink s (s.raise k) :=
  offLink_raiseBy s other 1

theorem offLink_report (s : State) (x : Cause) : OffLink s (s.report x) :=
  ⟨⟨rfl, fun ok => ok.report x, Nat.le_refl _⟩, rfl, rfl⟩

theorem offLink_modInlet (s : State) (f : Inlet → Inlet) : OffLink s (s.modInlet f) := offLink_of_same rfl rfl rfl rfl rfl

theorem offLink_modTrack (s : State) (source : Byte) (f : Tracking → Tracking) : OffLink s (s.modTrack source f) :=
  offLink_modInlet s _

theorem runsOn_modLink (s : State) (f : Link → Link) : RunsOn s (s.modLink f) := runsOn_of_same rfl rfl rfl

theorem runsOn_setMgmt (s : State) (m : Mgmt) : RunsOn s { s with mgmt := m } := runsOn_of_same rfl rfl rfl

theorem runsOn_complete (s : State) (x : Status) (d : List Byte) : RunsOn s (s.complete x d) :=
  runsOn_of_same (s.complete_power x d) (s.complete_alert x d) (s.complete_counters x d)

/-! ### The Event Unit's side (R120, R122) -/

theorem countsDiscards_recordDelivered (s : State) (r : Record) : CountsDiscards s (s.recordDelivered r) := by
  unfold State.recordDelivered
  split
  · have released := countsDiscards_releaseStaged
      { s with events := s.events.setDel r.channel { s.events.del r.channel with inFlight := false } } r.channel
    exact ⟨released.counts, released.windows⟩
  · exact .refl s

theorem countsDiscards_framesDelivered (s : State) (frames : List EventFrame) :
    CountsDiscards s (s.framesDelivered frames) := by
  unfold State.framesDelivered
  induction frames.flatMap (·.records) generalizing s with
  | nil => exact .refl s
  | cons r l ih => exact (countsDiscards_recordDelivered s r).trans (ih _)

theorem runsOn_framesDelivered (s : State) (frames : List EventFrame) : RunsOn s (s.framesDelivered frames) :=
  (eventSide_framesDelivered s frames).runsOn (countsDiscards_framesDelivered s frames)

theorem runsOn_applyResync (s : State) : RunsOn s s.applyResync := by
  have sent := s.applyResync_get_other (k := .framesSent) nofun nofun nofun
  refine ⟨s.applyResync_frame.1, fun ok => ?_, by rw [sent]⟩
  rw [State.applyResync_eq, State.modLink_alert, State.raiseBy_alert]
  exact (eventSide_resyncEvents s _).alert Alert.ok (fun _ x ok => ok.report x) ok

/-! ### Ack Frames: the Event Unit's side, and the link's (R129, R136–R138, R144) -/

/-- The frames of which an Ack Frame tells the Event Unit: in DOWN none, otherwise those that its number removes. -/
def Link.ackedFrames (l : Link) (ack : BitVec 6) : List EventFrame :=
  if l.state = .down then [] else l.replay.take (ackedCount l.replay ack)

/-- The link once an Ack Frame has been taken in UP. -/
def Link.ackedInUp (l : Link) (ack : BitVec 6) (grant : Nat) (resend : Bool) : Link :=
  let n := ackedCount l.replay ack
  let granted := (if n = 0 then l.dropAcked n else (l.dropAcked n).progress).grant grant
  if resend && !granted.replay.isEmpty then granted.beginRound else granted

/-- The link once an Ack Frame has been taken in STALLED. -/
def Link.ackedInStalled (l : Link) (ack : BitVec 6) (grant : Nat) : Link :=
  let risen := { (l.dropAcked (ackedCount l.replay ack)).grant grant with state := .up, roundCount := 0 }
  if risen.replay = [] then { risen with ackTimer := none } else risen.beginRound

/-- The link once an Ack Frame has been taken, by its state. -/
def Link.acked (l : Link) (ack : BitVec 6) (grant : Nat) (resend : Bool) : Link :=
  match l.state with
  | .down => (l.grant grant).comeUp
  | .up => l.ackedInUp ack grant resend
  | .stalled => l.ackedInStalled ack grant

theorem State.applyAck_eq (s : State) (ack : BitVec 6) :
    s.applyAck ack = (s.framesDelivered (s.link.replay.take (ackedCount s.link.replay ack))).modLink
      (·.dropAcked (ackedCount s.link.replay ack)) := framesDelivered_modLink _ _ _

theorem State.modLink_when (s : State) (p : Link → Bool) (f : Link → Link) :
    (if p s.link then s.modLink f else s) = s.modLink fun l => if p l then f l else l := by
  unfold State.modLink
  dsimp only
  split <;> rfl

theorem State.modLink_unless (s : State) (p : Prop) [Decidable p] (f : Link → Link) :
    (if p then s else s.modLink f) = s.modLink fun l => if p then l else f l := by
  unfold State.modLink
  split <;> rfl

/-- An Ack Frame is what the Event Unit makes of the removed frames, and what the link makes of the number, the grant and the
resend flag. -/
theorem State.takeAck_eq (s : State) (ack : BitVec 6) (grant : Nat) (resend : Bool) :
    s.takeAck ack grant resend =
      { s.framesDelivered (s.link.ackedFrames ack) with link := s.link.acked ack grant resend } := by
  have told : ∀ frames, (s.framesDelivered frames).link = s.link := fun frames =>
    (eventSide_framesDelivered s frames).link
  unfold State.takeAck Link.acked Link.ackedFrames
  cases state : s.link.state with
  | down => rfl
  | up =>
    rw [if_neg (by nofun)]
    have told := told (s.link.replay.take (ackedCount s.link.replay ack))
    show s.ackInUp ack grant resend = _
    simp only [State.ackInUp, State.applyAck_eq, State.modLink_unless]
    refine (State.modLink_when _ (fun l => resend && !l.replay.isEmpty) Link.beginRound).trans ?_
    generalize s.framesDelivered (s.link.replay.take (ackedCount s.link.replay ack)) = u at told ⊢
    rw [← told]
    rfl
  | stalled =>
    rw [if_neg (by nofun)]
    have told := told (s.link.replay.take (ackedCount s.link.replay ack))
    simp only [State.ackInStalled, State.applyAck_eq, Link.ackedInStalled]
    generalize s.framesDelivered (s.link.replay.take (ackedCount s.link.replay ack)) = u at told ⊢
    rw [← told]
    rfl

theorem runsOn_takeAck (s : State) (ack : BitVec 6) (grant : Nat) (resend : Bool) :
    RunsOn s (s.takeAck ack grant resend) := by
  rw [State.takeAck_eq]
  exact (runsOn_framesDelivered s _).trans (runsOn_of_same rfl rfl rfl)

/-! ### Inlet frames and swaps (R28, R38) -/

section
variable (s : State)

/-- A taken frame, its mirror copy apart: tracking, resumptions, a gap, and samples (R28). -/
theorem offLink_lanes (a : ActiveRoute) (cls : FrameClass) (m : SampleFrame) :
    OffLink s ((((s.trackFrame a.route m.sequence).resumeRoute a).takeGap a.route cls).deliverLanes a.route m.samples) := by
  have tracked : OffLink s (s.trackFrame a.route m.sequence) := (offLink_modTrack s _ _).trans (offLink_raise _ (by decide))
  have resumed : ∀ u : State, OffLink u (u.resumeRoute a) := fun u => by
    unfold State.resumeRoute
    split
    · exact (offLink_modTrack u _ _).trans (channelSide_resumes _ _).offLink
    · exact .refl u
  have gapped : ∀ u : State, OffLink u (u.takeGap a.route cls) := fun u => by
    unfold State.takeGap
    split
    · exact ((offLink_hand u _ _).trans (offLink_raise _ (by decide))).trans (channelSide_abandonRange _ _).offLink
    all_goals exact .refl u
  have sampled : ∀ u : State, OffLink u (u.deliverLanes a.route m.samples) := fun u => by
    have lanes := (channelSide_lanes u a.route m.samples).offLink
    unfold State.deliverLanes
    dsimp only
    split
    · exact lanes
    · exact lanes.trans (offLink_raise _ (by decide))
  exact tracked.trans ((resumed _).trans ((gapped _).trans (sampled _)))

/-- What becomes of a well-formed frame, as the outlet link sees it: nothing, or a copy offered (R33). -/
theorem State.handleInlet_cases (f : RawFrame) :
    ∃ u, OffLink s u ∧ (s.handleInlet f = u ∨ ∃ m, s.handleInlet f = u.offerMirror m) := by
  unfold State.handleInlet
  split
  · exact ⟨_, offLink_raise s (by decide), .inl rfl⟩
  · unfold State.routeFrame
    split
    · exact ⟨_, offLink_raise s (by decide), .inl rfl⟩
    · split
      · exact ⟨_, offLink_raise s (by decide), .inl rfl⟩
      · rename_i m _ _ a _ cls _
        refine ⟨_, offLink_lanes s a (classify a.track m.sequence) m, ?_⟩
        unfold State.takeFrame
        dsimp only
        split
        · exact .inr ⟨m, rfl⟩
        · exact .inl rfl

theorem runsOn_offerMirror (m : SampleFrame) : RunsOn s (s.offerMirror m) := by
  unfold State.offerMirror
  split
  · exact runsOn_modLink s _
  · exact (offLink_raise s (by decide)).toRunsOn

theorem runsOn_handleInlet (f : RawFrame) : RunsOn s (s.handleInlet f) := by
  obtain ⟨u, apart, same | ⟨m, copied⟩⟩ := s.handleInlet_cases f
  · exact same ▸ apart.toRunsOn
  · exact copied ▸ apart.toRunsOn.trans (runsOn_offerMirror u m)

theorem offLink_takeSwap : OffLink s s.takeSwap := (offLink_modInlet s _).trans (channelSide_takeSwap s).offLink

theorem runsOn_takeDueSwap : RunsOn s s.takeDueSwap := by
  unfold State.takeDueSwap
  split
  · exact (offLink_takeSwap s).toRunsOn.trans (runsOn_complete _ _ _)
  · exact .refl s

theorem runsOn_beginSwap (params : List Byte) : RunsOn s (s.beginSwap params) := by
  unfold State.beginSwap
  split
  · exact runsOn_complete _ _ _
  · split
    · exact (offLink_takeSwap s).toRunsOn.trans (runsOn_complete _ _ _)
    · exact (offLink_modInlet s _).toRunsOn

theorem offLink_declareSilent (a : ActiveRoute) : OffLink s (s.declareSilent a) :=
  (offLink_modTrack s _ _).trans (channelSide_silences _ _).offLink

/-! ### Requests -/

theorem offLink_setConfig (c : ChanNo) (new : ChannelConfig) : OffLink s (s.setConfig c new) := by
  obtain ⟨tier, groups, changed⟩ :=
    (s.modConfig c fun _ => new).changeGroup_cases c (s.chan c).config.group new.group
  have stored : OffLink s ((s.modConfig c fun _ => new).changeGroup c (s.chan c).config.group new.group) :=
    changed ▸ offLink_of_same rfl rfl rfl rfl rfl
  exact stored.trans (channelSide_applyModeChange (P := (· = c)) _ c rfl _ _).offLink

/-- A restart leaves power and, of the alert, mode and hold; every counter is 0 (R172–R174). -/
theorem runsOn_restart (tag : Byte) : RunsOn s (s.restart tag) := by
  refine ⟨rfl, fun ok => ok.quiet .empty, ?_⟩
  rw [show (s.restart tag).counters = .initial from rfl, CounterBank.get_initial]
  exact Nat.zero_le _

theorem runsOn_answerAtArrival (r : Response) {k : Option GlobalCounter} (other : k ≠ some .framesSent) :
    RunsOn s (s.answerAtArrival r k) := by
  unfold State.answerAtArrival
  split
  · split
    · rename_i j
      exact (runsOn_setMgmt s _).trans (offLink_raise _ fun same => other (congrArg some same)).toRunsOn
    · exact runsOn_setMgmt s _
  · exact (offLink_raise s (by decide)).toRunsOn

theorem runsOn_takeRequest (q : Request) : RunsOn s (s.takeRequest q) := by
  unfold State.takeRequest
  dsimp only
  split
  · exact (runsOn_takeDueSwap s).trans (runsOn_restart _ _)
  · exact runsOn_answerAtArrival s _ nofun
  · exact runsOn_answerAtArrival s _ (by simp)
  · exact (runsOn_setMgmt s _).trans (runsOn_answerAtArrival _ _ (by simp))
  · exact runsOn_setMgmt s _

theorem offLink_clear (set : CounterSet) : OffLink s { s with counters := s.counters.clear set } := by
  refine ⟨⟨rfl, id, ?_⟩, rfl, rfl⟩
  cases set with
  | global =>
    rw [show (s.counters.clear .global).get .framesSent = 0 from CounterBank.get_initial _]
    exact Nat.zero_le _
  | channel c => exact Nat.le_refl _

end

/-- The execution rows, RESYNC apart: none executes a RESYNC, and what their owners carry out leaves the link alone. -/
theorem ownedRow_offLink {i : Instr} (owned : ownedRow i) (other : i ≠ .resync) :
    ∃ is owner, is Config.cmdResync = false ∧ ownerAnswers OffLink owner ∧
      ∀ s, exec i s = .next (s.whileOn (·.execute is owner)) := by
  have ⟨named, notSwap⟩ := owned
  cases i with
  | setChannel =>
    refine ⟨_, ownSetChannel, rfl, fun s params => ?_, fun _ => rfl⟩
    unfold ownSetChannel
    split
    · split
      · exact acceptance_answers (offLink_setConfig s _ _)
      · exact refusal_answers _
    · exact refusal_answers _
  | rebase =>
    refine ⟨_, ownRebase, rfl, fun s params => ?_, fun _ => rfl⟩
    unfold ownRebase
    split
    · split
      · rename_i c _
        split
        · exact acceptance_answers (channelSide_forceSettling (P := (· = c)) s c rfl).offLink
        · exact refusal_answers _
      · exact refusal_answers _
    · exact refusal_answers _
  | setAlert =>
    refine ⟨_, ownSetAlert, rfl, fun s params => ?_, fun _ => rfl⟩
    unfold ownSetAlert
    split
    · split
      · rename_i parsed
        obtain ⟨least, most⟩ := parseAlert_hold parsed
        exact acceptance_answers ⟨⟨rfl, fun ok => ok.setMode _ least most, Nat.le_refl _⟩, rfl, rfl⟩
      · exact refusal_answers _
    · exact refusal_answers _
  | quietAlert =>
    refine ⟨_, ownQuietAlert, rfl, fun s params => ?_, fun _ => rfl⟩
    unfold ownQuietAlert
    split
    · exact acceptance_answers ⟨⟨rfl, fun ok => ok.quiet .empty, Nat.le_refl _⟩, rfl, rfl⟩
    · exact refusal_answers _
  | clearCounters =>
    refine ⟨_, ownClearCounters, rfl, fun s params => ?_, fun _ => rfl⟩
    unfold ownClearCounters
    split
    · split
      · exact acceptance_answers (offLink_clear s _)
      · exact refusal_answers _
    · exact refusal_answers _
  | describe | setProfile | getProfile | getChannel | setRoute | dropRoute | copyRoutes | getRoutes | readCounters
  | unknownCommand | restartWithParameters =>
    refine ⟨_, _, ?_, fun s params => ?_, fun _ => rfl⟩
    · decide
    simp only [ownDescribe, ownSetProfile, ownGetProfile, ownGetChannel, ownSetRoute, ownDropRoute, ownCopyRoutes,
      ownGetRoutes, ownReadCounters, ownUnknown, ownRestart]
    repeat' split
    all_goals first
      | exact refusal_answers _
      | exact acceptance_answers (offLink_of_same rfl rfl rfl rfl rfl)
  | resync => exact absurd rfl other
  | swapRoutes => exact absurd rfl notSwap
  | _ => simp [executionRow] at named

/-! ### The link's entries (R127, R143) -/

theorem runsOn_enterDownResync (s : State) (tag : Byte) : RunsOn s (s.enterDownResync tag) := by
  unfold State.enterDownResync
  exact (offLink_raiseBy s (k := .mirrorDiscards) (by decide) _).toRunsOn.trans (runsOn_modLink _ _)

theorem runsOn_stall (s : State) : RunsOn s s.stall := by
  unfold State.stall
  exact ((offLink_raiseBy s (k := .mirrorDiscards) (by decide) _).toRunsOn.trans (runsOn_modLink _ _)).trans
    ((offLink_raise _ (k := .stallEntries) (by decide)).trans (offLink_report _ _)).toRunsOn

/-! ### Every command -/

/-- The rows of the power reset, of its release, and of a new Event Frame. -/
def resetsOrSends : Instr → Bool
  | .powerReset _ | .resetNRelease | .newEventFrame => true
  | _ => false

/-- With every other command the part runs on. -/
theorem exec_runsOn {i : Instr} {s t : State} (other : resetsOrSends i = false) (h : exec i s = .next t) :
    RunsOn s t := by
  have on : ∀ {f : State → State}, RunsOn s (f s) → RunsOn s (s.whileOn f) := State.whileOn_keeps (.refl s)
  have linked : ∀ {f : Link → Link}, RunsOn s (s.modLink f) := runsOn_modLink s _
  by_cases owned : ownedRow i ∧ i ≠ .resync
  · obtain ⟨is, owner, -, answers, row⟩ := ownedRow_offLink owned.1 owned.2
    cases (row s).symm.trans h
    refine on (State.execute_keeps (.refl s) fun q _ _ => ?_)
    obtain ⟨x, refused⟩ | ⟨u, data, apart, carried⟩ := answers s q.params
    · rw [refused]
      exact runsOn_complete _ _ _
    · rw [carried]
      exact apart.toRunsOn.trans (runsOn_complete _ _ _)
  cases i with
  | sampleFrame f =>
    cases h
    exact on (((runsOn_takeDueSwap s).trans (runsOn_handleInlet _ f)).trans (offLink_modInlet _ _).toRunsOn)
  | inletTruncation =>
    cases h
    refine on ?_
    split
    · exact ((offLink_modInlet s _).trans (offLink_raise _ (by decide))).toRunsOn
    · exact .refl s
  | silenceTimerExpiry source =>
    cases h
    refine on ?_
    split
    · split
      · exact (offLink_declareSilent s _).toRunsOn
      · exact .refl s
    · exact .refl s
  | quietTimerExpiry c =>
    cases h
    refine on ?_
    split
    · exact (channelSide_driftStep (P := (· = c)) s c rfl).offLink.toRunsOn
    · exact .refl s
  | maxActiveExpiry c =>
    cases h
    refine on ?_
    split
    · exact (channelSide_stuckExpiry (P := (· = c)) s c rfl).offLink.toRunsOn
    · exact .refl s
  | ackFrame f =>
    cases h
    refine on ?_
    split
    · exact linked.trans (runsOn_takeAck _ _ _ _)
    all_goals exact .refl s
  | inboundDiscard f =>
    cases h
    refine on ?_
    split
    · exact linked.trans (offLink_raise _ (by decide)).toRunsOn
    all_goals exact .refl s
  | inboundTruncation =>
    cases h
    refine on ?_
    split
    · exact linked.trans (offLink_raise _ (by decide)).toRunsOn
    · exact .refl s
  | ackTimerExpiry =>
    cases h
    refine on ?_
    split
    · unfold State.ackExpiry
      split
      · exact linked
      · exact runsOn_stall s
    · exact .refl s
  | holdTimerExpiry =>
    cases h
    refine on ?_
    split
    · exact ⟨rfl, fun ok => ok.quiet s.alert.causes, Nat.le_refl _⟩
    · exact .refl s
  | transmissionComplete =>
    cases h
    refine on ?_
    split
    · unfold State.completeTransmission
      dsimp only
      split
      · exact linked.trans (runsOn_enterDownResync _ _)
      · exact linked
    · exact .refl s
  | responseFrameSend =>
    cases h
    refine on ?_
    split
    · exact runsOn_of_same rfl rfl rfl
    · exact .refl s
  | announceFrameSend | announceTimerExpiry =>
    cases h
    refine on ?_
    split
    · exact runsOn_of_same rfl rfl rfl
    · exact .refl s
  | retransmittedFrame | mirrorFrameSend =>
    cases h
    refine on ?_
    split
    · refine (linked.trans (runsOn_modLink _ _)).trans (OffLink.toRunsOn (offLink_raise _ ?_))
      decide
    · exact .refl s
  | requestFrame f =>
    cases h
    refine on ?_
    split
    · exact linked.trans (runsOn_takeRequest _ _)
    all_goals exact .refl s
  | resync =>
    cases h
    refine on (State.execute_keeps (.refl s) fun q _ _ => ?_)
    unfold ownResync
    split
    · exact (runsOn_applyResync s).trans (runsOn_complete _ _ _)
    · exact runsOn_complete _ _ _
  | swapRoutes =>
    cases h
    refine on ?_
    split
    · split
      · exact runsOn_beginSwap s _
      · exact .refl s
    · exact .refl s
  | swapTaken =>
    cases h
    exact on (runsOn_takeDueSwap s)
  | timeBaseTick =>
    cases h
    exact on ⟨rfl, fun ok => ok.tick, Nat.le_refl _⟩
  | inletSyncPair | inboundSyncPair =>
    cases h
    exact on (runsOn_of_same rfl rfl rfl)
  | powerReset _ | resetNRelease | newEventFrame => cases other
  | unknownCommand => exact absurd ⟨⟨.inr (.inl rfl), nofun⟩, nofun⟩ owned
  | restartWithParameters => exact absurd ⟨⟨.inr (.inr rfl), nofun⟩, nofun⟩ owned
  | _ => exact absurd ⟨⟨.inl rfl, nofun⟩, nofun⟩ owned

end Sys2Proof.Machine
end

section
/-! Every step keeps the alert's relations and the power-reset values of a held part (R150, R177, R180). -/

namespace Sys2Proof.Machine

/-- A step idles, or executes the front command on the state with the rest of the queue. -/
theorem step_cases {s t : State} (h : step s = .next t) :
    t = s ∨ ∃ i rest, exec i { s with pending := rest } = .next t := by
  unfold step at h
  split at h
  · cases h
    exact .inl rfl
  · exact .inr ⟨_, _, h⟩

theorem alertOk_heldIn (cause : PowerCause) : (State.heldIn cause).alert.ok := by
  cases cause <;> exact ⟨fun _ => rfl, by decide, by decide, by decide, nofun⟩

/-- A new Event Frame changes event path, link and counters (R134). -/
theorem exec_newEventFrame_frame {s t : State} (h : exec .newEventFrame s = .next t) :
    t.power = s.power ∧ t.alert = s.alert := by
  cases h
  refine State.whileOn_keeps (P := fun u => u.power = s.power ∧ u.alert = s.alert) ⟨rfl, rfl⟩ ?_
  split <;> exact ⟨rfl, rfl⟩

theorem alertOk_exec {i : Instr} {s t : State} (ok : s.alert.ok) (h : exec i s = .next t) : t.alert.ok := by
  by_cases other : resetsOrSends i = false
  · exact (exec_runsOn other h).alert ok
  cases i with
  | powerReset cause =>
    cases h
    exact alertOk_heldIn cause
  | resetNRelease =>
    cases power : s.power with
    | held cause =>
      cases (exec_release_of_held power).symm.trans h
      exact alertOk_heldIn cause
    | running =>
      cases (exec_release_of_running power).symm.trans h
      exact ok
  | newEventFrame => exact (exec_newEventFrame_frame h).2 ▸ ok
  | _ => exact absurd rfl other

/-- Nothing but a power reset makes a running part held. -/
theorem exec_stays_running {i : Instr} {s t : State} (notReset : ∀ cause, i ≠ .powerReset cause)
    (running : s.power = .running) (h : exec i s = .next t) : t.power = .running := by
  by_cases other : resetsOrSends i = false
  · exact (exec_runsOn other h).power.trans running
  cases i with
  | powerReset cause => exact absurd rfl (notReset cause)
  | resetNRelease =>
    cases (exec_release_of_running running).symm.trans h
    exact running
  | newEventFrame => exact (exec_newEventFrame_frame h).1.trans running
  | _ => exact absurd rfl other

/-- A held part stays at its power-reset values, since it takes no event; one that runs is held by a power reset only, which
sets them. -/
theorem heldOk_exec {i : Instr} {s t : State} (ok : s.heldOk) (h : exec i s = .next t) : t.heldOk := by
  by_cases reset : ∃ cause, i = .powerReset cause
  · obtain ⟨cause, rfl⟩ := reset
    cases h
    intro held power
    cases power
    rfl
  have notReset : ∀ cause, i ≠ .powerReset cause := fun cause same => reset ⟨cause, same⟩
  cases power : s.power with
  | running =>
    intro held still
    cases (exec_stays_running notReset power h).symm.trans still
  | held cause =>
    by_cases release : i = .resetNRelease
    · subst release
      cases (exec_release_of_held power).symm.trans h
      exact fun _ still => nomatch still
    · cases (heldPartTakesNoEvent s i cause power notReset release).symm.trans h
      exact ok

/-- The queue of waiting commands is no part of a held part's values. -/
theorem heldOk_setPending {s : State} (ok : s.heldOk) (l : List Instr) : State.heldOk { s with pending := l } :=
  fun cause held => congrArg (fun u : State => { u with pending := l }) (ok cause held)

/-- Settles O60: the alert's relations by what each command does to the alert, the held part by what a held part takes. -/
theorem stepKeepsAlertAndHeld : Obligations.StepKeepsAlertAndHeld := by
  intro s t alert held stepped
  obtain rfl | ⟨i, rest, executed⟩ := step_cases stepped
  · exact ⟨alert, held⟩
  · exact ⟨alertOk_exec (s := { s with pending := rest }) alert executed,
      heldOk_exec (heldOk_setPending held rest) executed⟩

end Sys2Proof.Machine
end

section
/-! SUPPORT. The bounds and relations of the outlet link (R126, R132, R135, R139–R141, R145, R148), of the link itself, and
the operations on it that keep them. -/

namespace Sys2Proof.Machine

/-! ### Numbering (R133, R135) -/

theorem numbered_drop {next : BitVec 6} {l : List EventFrame} (h : numbered next l) (n : Nat) :
    numbered next (l.drop n) := by
  induction n generalizing l with
  | zero => exact h
  | succ n ih =>
    cases l with
    | nil => exact h
    | cons f rest => exact ih h.2

/-- A frame with the next number joins the buffer. -/
theorem numbered_append {next : BitVec 6} {l : List EventFrame} (h : numbered next l) {f : EventFrame}
    (seq : f.seq = next) : numbered (next + 1) (l ++ [f]) := by
  induction l with
  | nil =>
    refine ⟨?_, trivial⟩
    rw [seq]
    exact (BitVec.add_sub_cancel next 1).symm
  | cons x rest ih =>
    obtain ⟨first, others⟩ := h
    refine ⟨?_, ih others⟩
    show x.seq = next + 1 - BitVec.ofNat 6 ((rest ++ [f]).length + 1)
    rw [first, List.length_append, List.length_singleton]
    generalize rest.length + 1 = n
    rw [BitVec.ofNat_add]
    bv_omega

/-! ### The bounds and relations -/

/-- The bounds and relations of chapter 7, of a link `l` in a part with the given power; `ordered` says that the response of a
RESYNC waits in the Response Queue. -/
structure Link.inOrder (power : Power) (ordered : Prop) (l : Link) : Prop where
  credits : l.credits ≤ Config.creditMax
  length : l.replay.length ≤ Config.replayCapacity
  numbers : numbered l.nextSeq l.replay
  records : ∀ f ∈ l.replay, 1 ≤ f.records.length ∧ f.records.length ≤ Config.recordsPerFrame
  emptyDown : l.state = .down → l.replay = []
  emptyResync : l.laneResync.isSome ∨ ordered → l.replay = []
  stalled : l.state = .stalled → l.replay ≠ [] ∨ l.laneResync.isSome ∨ ordered
  rounds : l.roundCount ≤ Config.roundLimit
  left : l.roundLeft ≤ l.replay.length
  leftUp : 0 < l.roundLeft → l.state = .up
  ack : l.ackTimer.isSome ↔ l.state = .up ∧ l.replay ≠ []
  ackTime : ∀ t ∈ l.ackTimer, t ≤ Config.ackTime
  announceTime : ∀ t ∈ l.announceTimer, t ≤ Config.announceTime
  announce : l.announceTimer.isSome ↔ l.state = .down ∧ power = .running
  due : l.announceDue = true → l.state = .down
  copies : l.mirror.length ≤ Config.mirrorCapacity
  copiesUp : l.state ≠ .up → l.mirror = []
  lane : l.laneResync.isSome → l.lane.isSome

/-- A RESYNC's own response waits in the Response Queue (R148). -/
def State.downOrdered (s : State) : Prop := ∃ r ∈ s.mgmt.responses, r.ordersDown = true

theorem Response.ordersDown_iff (r : Response) :
    r.ordersDown = true ↔ r.command = Config.cmdResync ∧ r.status = .ok ∧ r.replayed = false := by
  simp [Response.ordersDown, and_assoc]

theorem State.resyncPending_iff (s : State) : s.resyncPending ↔ s.link.laneResync.isSome ∨ s.downOrdered := by
  simp only [State.resyncPending, State.downOrdered, Response.ordersDown_iff]

theorem State.linkOk_iff (s : State) : s.linkOk ↔ s.link.inOrder s.power s.downOrdered := by
  unfold State.linkOk
  rw [State.resyncPending_iff]
  constructor
  · rintro ⟨h1, h2, h3, h4, h5, h6, h7, h8, h9, h10, h11, h12, h13, h14, h15, h16, h17, h18⟩
    exact ⟨h1, h2, h3, h4, h5, h6, h7, h8, h9, h10, h11, h12, h13, h14, h15, h16, h17, h18⟩
  · rintro ⟨h1, h2, h3, h4, h5, h6, h7, h8, h9, h10, h11, h12, h13, h14, h15, h16, h17, h18⟩
    exact ⟨h1, h2, h3, h4, h5, h6, h7, h8, h9, h10, h11, h12, h13, h14, h15, h16, h17, h18⟩

section
variable {l : Link} {power : Power} {ordered : Prop} (ok : l.inOrder power ordered)
include ok

/-! ### Reception, ticks, mirror copies -/

theorem Link.inOrder.setReception (r : Reception) : Link.inOrder power ordered { l with reception := r } := { ok with }

/-- What a tick leaves of a bounded timer. -/
theorem Link.inOrder.tick (r : Reception) :
    Link.inOrder power ordered
      { l with reception := r, ackTimer := tickTimer l.ackTimer, announceTimer := tickTimer l.announceTimer } := by
  have counted : ∀ {timer : Timer} {bound : Nat}, (∀ t ∈ timer, t ≤ bound) → ∀ t ∈ tickTimer timer, t ≤ bound := by
    intro timer bound short t mem
    obtain ⟨k, held, rfl⟩ := Option.map_eq_some_iff.mp mem
    exact (Nat.sub_le k 1).trans (short k held)
  exact { ok with
    ack := by simpa [tickTimer] using ok.ack
    ackTime := counted ok.ackTime
    announceTime := counted ok.announceTime
    announce := by simpa [tickTimer] using ok.announce }

theorem Link.inOrder.addCopy (up : l.state = .up) (room : l.mirror.length < Config.mirrorCapacity) (m : SampleFrame) :
    Link.inOrder power ordered { l with mirror := l.mirror ++ [m] } :=
  { ok with
    copies := by simpa using room
    copiesUp := fun other => absurd up other }

/-! ### Grants and acknowledgements (R129, R132, R136–R138, R144) -/

theorem Link.inOrder.grant (n : Nat) : (l.grant n).inOrder power ordered := { ok with credits := Nat.min_le_right _ _ }

/-- Outside DOWN frames are removed and the link is UP: the order stands when the ack timer runs exactly while a frame
remains, and the round resends remaining frames only. -/
theorem Link.inOrder.removed (undown : l.state ≠ .down) (n : Nat) {timer : Timer}
    (short : ∀ t ∈ timer, t ≤ Config.ackTime) (runs : timer.isSome ↔ l.replay.drop n ≠ []) {count : Nat}
    (low : count ≤ Config.roundLimit) {left : Nat} (within : left ≤ (l.replay.drop n).length) :
    Link.inOrder power ordered
      { l with state := .up, replay := l.replay.drop n, ackTimer := timer, roundCount := count, roundLeft := left } :=
  { ok with
    length := (List.length_drop ..).trans_le ((Nat.sub_le _ _).trans ok.length)
    numbers := numbered_drop ok.numbers n
    records := fun f mem => ok.records f (List.mem_of_mem_drop mem)
    emptyDown := nofun
    emptyResync := fun resync => by rw [ok.emptyResync resync, List.drop_nil]
    stalled := nofun
    rounds := low
    left := within
    leftUp := fun _ => rfl
    ack := runs.trans (and_iff_right rfl).symm
    ackTime := short
    announce := ⟨fun runs => absurd (ok.announce.mp runs).1 undown, fun h => nomatch h.1⟩
    due := fun due => absurd (ok.due due) undown
    copiesUp := fun other => absurd rfl other }

/-- A round of all buffered frames begins (R138, R141, R144). -/
theorem Link.inOrder.beginRound (up : l.state = .up) (some : l.replay ≠ []) : l.beginRound.inOrder power ordered :=
  { ok with
    left := Nat.le_refl _
    leftUp := fun _ => up
    ack := ⟨fun _ => ⟨up, some⟩, fun _ => rfl⟩
    ackTime := fun t mem => by cases mem; exact Nat.le_refl _ }

/-- An acknowledge number in UP (R136, R137): the ack timer restarts or stops when it names a frame. -/
theorem Link.inOrder.dropAcked_up (up : l.state = .up) (n : Nat) :
    (if n = 0 then l.dropAcked n else (l.dropAcked n).progress).inOrder power ordered := by
  have undown : l.state ≠ .down := by rw [up]; nofun
  split
  · rename_i none
    subst none
    have same := ok.removed undown 0 ok.ackTime (by simpa [up] using ok.ack) ok.rounds (Nat.min_le_right l.roundLeft _)
    rwa [← up] at same
  · have fresh := ok.removed undown n (timer := if l.replay.drop n = [] then none else some Config.ackTime)
      (by split <;> simp) (by split <;> simp_all) (Nat.zero_le _) (Nat.min_le_right l.roundLeft _)
    rwa [← up] at fresh

theorem Link.inOrder.ackedInUp (up : l.state = .up) (ack : BitVec 6) (grant : Nat) (resend : Bool) :
    (l.ackedInUp ack grant resend).inOrder power ordered := by
  have granted := (ok.dropAcked_up up (ackedCount l.replay ack)).grant grant
  have still : (if ackedCount l.replay ack = 0 then l.dropAcked (ackedCount l.replay ack)
      else (l.dropAcked (ackedCount l.replay ack)).progress).state = .up := by split <;> exact up
  unfold Link.ackedInUp
  dsimp only
  generalize (if ackedCount l.replay ack = 0 then l.dropAcked (ackedCount l.replay ack)
    else (l.dropAcked (ackedCount l.replay ack)).progress) = m at granted still ⊢
  split
  · rename_i begins
    rw [Bool.and_eq_true, Bool.not_eq_true', List.isEmpty_eq_false_iff] at begins
    exact granted.beginRound still begins.2
  · exact granted

/-- An Ack Frame brings a stalled link UP, and what remains is resent (R144). -/
theorem Link.inOrder.ackedInStalled (stalled : l.state = .stalled) (ack : BitVec 6) (grant : Nat) :
    (l.ackedInStalled ack grant).inOrder power ordered := by
  have undown : l.state ≠ .down := by rw [stalled]; nofun
  have risen := fun timer short runs => (ok.removed undown (ackedCount l.replay ack) (timer := timer) short runs
    (Nat.zero_le _) (Nat.min_le_right l.roundLeft _)).grant grant
  unfold Link.ackedInStalled
  dsimp only
  split
  · rename_i empty
    exact risen none nofun ⟨nofun, fun some => absurd empty some⟩
  · rename_i some
    exact (risen (.some Config.ackTime) (by simp) ⟨fun _ => some, fun _ => rfl⟩).beginRound rfl some

/-- An Ack Frame in DOWN brings the link UP (R129). -/
theorem Link.inOrder.comeUp (down : l.state = .down) : l.comeUp.inOrder power ordered := by
  have empty : l.replay = [] := ok.emptyDown down
  have still : l.ackTimer = none := by
    have := ok.ack
    simpa [down] using this
  exact { ok with
    numbers := by
      show numbered 0 l.replay
      rw [empty]
      trivial
    emptyDown := fun _ => empty
    stalled := nofun
    rounds := Nat.zero_le _
    leftUp := fun _ => rfl
    ack := by
      show l.ackTimer.isSome ↔ _
      rw [still]
      simp [Link.comeUp, empty]
    announceTime := nofun
    announce := by simp [Link.comeUp]
    due := nofun
    copiesUp := fun other => absurd rfl other }

theorem Link.inOrder.acked (ack : BitVec 6) (grant : Nat) (resend : Bool) :
    (l.acked ack grant resend).inOrder power ordered := by
  unfold Link.acked
  cases state : l.state with
  | down => exact (ok.grant grant).comeUp state
  | up => exact ok.ackedInUp state ack grant resend
  | stalled => exact ok.ackedInStalled state ack grant

/-! ### Rounds, the stall, the resync (R140, R141, R143, R148) -/

/-- A frame of the round has been resent. -/
theorem Link.inOrder.resend (f : OutFrame) :
    Link.inOrder power ordered { l with roundLeft := l.roundLeft - 1, lane := some f } :=
  { ok with
    left := (Nat.sub_le _ _).trans ok.left
    leftUp := fun some => ok.leftUp (Nat.lt_of_lt_of_le some (Nat.sub_le _ _))
    lane := fun _ => rfl }

theorem Link.inOrder.stall (up : l.state = .up) (runs : l.ackTimer.isSome) :
    Link.inOrder power ordered { l with state := .stalled, roundLeft := 0, ackTimer := none, mirror := [] } :=
  { ok with
    emptyDown := nofun
    stalled := fun _ => .inl (ok.ack.mp runs).2
    left := Nat.zero_le _
    leftUp := nofun
    ack := by simp
    ackTime := nofun
    announce := ⟨fun runs => absurd (up.symm.trans (ok.announce.mp runs).1) nofun, fun h => nomatch h.1⟩
    due := fun due => absurd (up.symm.trans (ok.due due)) nofun
    copies := Nat.zero_le _
    copiesUp := fun _ => rfl }

/-- A RESYNC resets the link, and its response is queued (R148). -/
theorem Link.inOrder.resynced : l.resynced.inOrder power True :=
  { ok with
    credits := Nat.zero_le _
    length := Nat.zero_le _
    numbers := trivial
    records := nofun
    emptyDown := fun _ => rfl
    emptyResync := fun _ => rfl
    stalled := fun _ => .inr (.inr trivial)
    rounds := Nat.zero_le _
    left := Nat.zero_le _
    leftUp := nofun
    ack := by simp [Link.resynced]
    ackTime := nofun
    copies := Nat.zero_le _
    copiesUp := fun _ => rfl }

/-! ### Entry into DOWN (R127) -/

omit ok in
/-- A link in DOWN with empty buffers, its announce cycle begun, in a running part. -/
theorem Link.inOrder_enterDown (running : power = .running) (cause : ResetCause) (empty : l.replay = [])
    (lane : l.laneResync.isSome → l.lane.isSome) : (l.enterDown cause).inOrder power ordered where
  credits := Nat.zero_le _
  length := by simp [Link.enterDown, empty]
  numbers := by simp [Link.enterDown, empty, numbered]
  records := by simp [Link.enterDown, empty]
  emptyDown := fun _ => empty
  emptyResync := fun _ => empty
  stalled := nofun
  rounds := Nat.zero_le _
  left := Nat.zero_le _
  leftUp := nofun
  ack := by simp [Link.enterDown]
  ackTime := nofun
  announceTime := fun t mem => by cases mem; exact Nat.le_refl _
  announce := ⟨fun _ => ⟨rfl, running⟩, fun _ => rfl⟩
  due := fun _ => rfl
  copies := Nat.zero_le _
  copiesUp := fun _ => rfl
  lane := lane

theorem Link.inOrder.announceExpiry (down : l.state = .down) (running : power = .running) :
    Link.inOrder power ordered { l with announceDue := true, announceTimer := some Config.announceTime } :=
  { ok with
    announceTime := fun t mem => by cases mem; exact Nat.le_refl _
    announce := ⟨fun _ => ⟨down, running⟩, fun _ => rfl⟩
    due := fun _ => down }

/-! ### The outbound lane (R128, R130, R134, R145, R148) -/

theorem Link.inOrder.sendAnnounce (f : OutFrame) :
    Link.inOrder power ordered { l with announceDue := false, lane := some f } :=
  { ok with
    due := nofun
    lane := fun _ => rfl }

theorem Link.inOrder.sendCopy {m : SampleFrame} {rest : List SampleFrame} (head : l.mirror = m :: rest) (f : OutFrame) :
    Link.inOrder power ordered { l with mirror := rest, lane := some f } :=
  { ok with
    copies := by
      have := ok.copies
      rw [head] at this
      exact (Nat.le_succ _).trans this
    copiesUp := fun other => by
      have := ok.copiesUp other
      rw [head] at this
      cases this
    lane := fun _ => rfl }

theorem Link.inOrder.freeLane (free : l.laneResync = none) :
    Link.inOrder power ordered { l with lane := none, laneResync := none } :=
  { ok with
    emptyResync := fun resync => ok.emptyResync (resync.imp_left nofun)
    stalled := fun stalled => by simpa [free] using ok.stalled stalled
    lane := nofun }

/-- A new Event Frame of a part in which no RESYNC's response waits or is in transmission (R134). -/
theorem Link.inOrder.sendEvent (up : l.state = .up) (quiet : ¬ (l.laneResync.isSome ∨ ordered))
    (room : l.replay.length < Config.replayCapacity) {f : EventFrame} (seq : f.seq = l.nextSeq)
    (least : 1 ≤ f.records.length) (most : f.records.length ≤ Config.recordsPerFrame) :
    Link.inOrder power ordered
      { l with
        nextSeq := l.nextSeq + 1, credits := l.credits - 1, replay := l.replay ++ [f]
        ackTimer := if l.replay = [] then some Config.ackTime else l.ackTimer
        lane := some (.event f) } :=
  { ok with
    credits := (Nat.sub_le _ _).trans ok.credits
    length := by simpa using room
    numbers := numbered_append ok.numbers seq
    records := fun x mem => by
      obtain old | new := List.mem_append.mp mem
      · exact ok.records x old
      · rw [List.mem_singleton.mp new]
        exact ⟨least, most⟩
    emptyDown := fun down => absurd (up.symm.trans down) nofun
    emptyResync := fun resync => absurd resync quiet
    stalled := fun stalled => absurd (up.symm.trans stalled) nofun
    left := ok.left.trans (by simp)
    ack := by
      have runs := ok.ack
      by_cases empty : l.replay = []
      · simp [empty, up]
      · simpa [empty, up] using runs
    ackTime := fun t mem => by
      by_cases empty : l.replay = []
      · simp_all
      · exact ok.ackTime t (by simpa [empty] using mem)
    lane := fun _ => rfl }

end

end Sys2Proof.Machine
end

section
/-! Every step keeps the bounds and relations of the outlet link (R126, R132, R135, R139–R141, R145, R148). -/

namespace Sys2Proof.Machine

/-! ### The arbiter (R131) -/

/-- A class's place in the order of R131, the highest class first. -/
def LaneClass.place : LaneClass → Nat
  | .response => 0
  | .announce => 1
  | .retransmission => 2
  | .event => 3
  | .mirror => 4

/-- A frame of the class is present (R131). -/
def State.present (s : State) : LaneClass → Prop
  | .response => s.mgmt.responses ≠ []
  | .announce => s.link.state = .down ∧ s.link.announceDue = true
  | .retransmission => 0 < s.link.roundLeft
  | .event =>
    s.link.state = .up ∧ 1 ≤ s.link.credits ∧ s.link.replay.length < Config.replayCapacity ∧ s.events.queue ≠ []
  | .mirror => s.link.state = .up ∧ s.link.mirror ≠ []

theorem LaneClass.forall_iff {p : LaneClass → Prop} :
    (∀ k, p k) ↔ p .response ∧ p .announce ∧ p .retransmission ∧ p .event ∧ p .mirror :=
  ⟨fun h => ⟨h _, h _, h _, h _, h _⟩, fun ⟨h0, h1, h2, h3, h4⟩ k => by cases k <;> assumption⟩

theorem LaneClass.place_injective : LaneClass.place.Injective := fun j k same => by
  cases j <;> cases k <;> cases same <;> rfl

/-- Of the frames present one class alone has no higher one: the grant to it is the grant of R131. -/
theorem State.some_eq_some_iff_first {s : State} {j : LaneClass} (present : s.present j)
    (first : ∀ i, i.place < j.place → ¬ s.present i) (k : LaneClass) :
    some j = some k ↔ s.present k ∧ ∀ i, i.place < k.place → ¬ s.present i := by
  constructor
  · rintro ⟨⟩
    exact ⟨present, first⟩
  · rintro ⟨other, before⟩
    obtain lower | same | higher := Nat.lt_trichotomy j.place k.place
    · exact absurd present (before j lower)
    · rw [LaneClass.place_injective same]
    · exact absurd other (first k higher)

/-- The lane is granted to a class when it is free, a frame of the class is present, and none of a higher class is. -/
theorem State.laneGrant_iff (s : State) (k : LaneClass) :
    s.laneGrant = some k ↔ s.link.lane = none ∧ s.present k ∧ ∀ j, j.place < k.place → ¬ s.present j := by
  unfold State.laneGrant
  dsimp only
  split
  · rename_i busy
    simp [Option.isSome_iff_ne_none.mp busy]
  rename_i free
  rw [and_iff_right (Option.not_isSome_iff_eq_none.mp free)]
  split
  · rename_i waits
    exact State.some_eq_some_iff_first (j := .response) (by simpa [State.present] using waits) nofun k
  rename_i silent
  have noResponse : ¬ s.present .response := by simpa [State.present] using silent
  split
  · refine State.some_eq_some_iff_first (j := .announce) (by assumption) ?_ k
    simp [LaneClass.forall_iff, LaneClass.place, noResponse]
  rename_i notDue
  have noAnnounce : ¬ s.present .announce := notDue
  split
  · refine State.some_eq_some_iff_first (j := .retransmission) (by assumption) ?_ k
    simp [LaneClass.forall_iff, LaneClass.place, noResponse, noAnnounce]
  rename_i noRound
  have noRetransmission : ¬ s.present .retransmission := noRound
  split
  · refine State.some_eq_some_iff_first (j := .event) (by assumption) ?_ k
    simp [LaneClass.forall_iff, LaneClass.place, noResponse, noAnnounce, noRetransmission]
  rename_i noEvent
  have none : ∀ j, s.present j → j = .mirror := fun j => by
    cases j
    case mirror => exact fun _ => rfl
    all_goals exact fun present => absurd present (by assumption)
  split
  · refine State.some_eq_some_iff_first (j := .mirror) (by assumption) (fun i higher present => ?_) k
    cases none i present
    exact absurd higher (Nat.lt_irrefl _)
  · rename_i noCopy
    refine iff_of_false nofun fun ⟨present, _⟩ => ?_
    cases none k present
    exact noCopy present

/-! ### Commands that the link does not see -/

/-- Power and link are as they were, and so is whether a RESYNC's response waits. -/
structure SameLink (s t : State) : Prop where
  power : t.power = s.power
  link : t.link = s.link
  ordered : t.downOrdered ↔ s.downOrdered

section
variable {s t : State}

theorem SameLink.refl (s : State) : SameLink s s := ⟨rfl, rfl, .rfl⟩

theorem SameLink.trans {s t u : State} (h : SameLink s t) (k : SameLink t u) : SameLink s u :=
  ⟨k.power.trans h.power, k.link.trans h.link, k.ordered.trans h.ordered⟩

theorem SameLink.linkOk (h : SameLink s t) (ok : s.linkOk) : t.linkOk := by
  rw [State.linkOk_iff] at ok ⊢
  rw [h.power, h.link, propext h.ordered]
  exact ok

theorem OffLink.sameLink (h : OffLink s t) : SameLink s t :=
  ⟨h.power, h.link, by rw [State.downOrdered, State.downOrdered, h.mgmt]⟩

theorem downOrdered_push {s t : State} {r : Response}
    (pushed : t.mgmt.responses = s.mgmt.responses ++ [r]) (other : r.ordersDown = false) :
    t.downOrdered ↔ s.downOrdered := by
  simp [State.downOrdered, pushed, other]

/-- A completion queues no response that orders the link DOWN, unless it is that of a RESYNC carried out. -/
theorem sameLink_complete (s : State) {x : Status} (d : List Byte)
    (other : ∀ q, s.mgmt.requests.head? = some q → q.command = Config.cmdResync → x ≠ .ok) :
    SameLink s (s.complete x d) := by
  refine ⟨s.complete_power x d, s.complete_link x d, ?_⟩
  cases requests : s.mgmt.requests with
  | nil => rw [State.complete_nil requests]
  | cons q rest =>
    refine downOrdered_push (State.complete_of_head requests x d).2 ?_
    have other := other q (by rw [requests]; rfl)
    rw [← Bool.not_eq_true, Response.ordersDown_iff]
    exact fun ⟨command, status, _⟩ => other command status

theorem sameLink_answerAtArrival (s : State) {r : Response} (other : r.ordersDown = false) (k : Option GlobalCounter) :
    SameLink s (s.answerAtArrival r k) := by
  refine ⟨s.answerAtArrival_power r k, s.answerAtArrival_link r k, ?_⟩
  obtain ⟨-, b, pushed⟩ | ⟨-, full⟩ := s.answerAtArrival_cases r k
  · exact downOrdered_push (by rw [pushed]; rfl) other
  · rw [full]
    rfl

/-- A swap that waits or is due was ordered by the head request (R37). -/
theorem head_of_swap (mgmt : s.mgmtOk) (swap : s.inlet.swap ≠ .none) {q : Request}
    (head : s.mgmt.requests.head? = some q) : q.command = Config.cmdSwapRoutes := by
  obtain ⟨-, -, -, -, -, -, -, ordered, -⟩ := mgmt
  have := ordered swap
  rw [head] at this
  exact Option.some.inj this

theorem sameLink_takeDueSwap (mgmt : s.mgmtOk) : SameLink s s.takeDueSwap := by
  unfold State.takeDueSwap
  split
  · rename_i due
    refine (offLink_takeSwap s).sameLink.trans (sameLink_complete _ _ fun q head command => ?_)
    rw [(offLink_takeSwap s).mgmt] at head
    have swaps := head_of_swap mgmt (by rw [due]; nofun) head
    exact absurd (swaps.symm.trans command) (by decide)
  · exact .refl s

theorem sameLink_beginSwap {q : Request} (head : s.mgmt.requests.head? = some q)
    (swaps : q.command = Config.cmdSwapRoutes) (params : List Byte) : SameLink s (s.beginSwap params) := by
  have other : ∀ r, s.mgmt.requests.head? = some r → r.command = Config.cmdResync → Status.ok ≠ .ok := by
    intro r first command
    cases head.symm.trans first
    exact absurd (swaps.symm.trans command) (by decide)
  unfold State.beginSwap
  split
  · exact sameLink_complete s _ fun _ _ _ => nofun
  · split
    · refine (offLink_takeSwap s).sameLink.trans (sameLink_complete _ _ ?_)
      rw [(offLink_takeSwap s).mgmt]
      exact other
    · exact (offLink_modInlet s _).sameLink

/-- An execution row, RESYNC apart, completes no RESYNC (R162). -/
theorem exec_owned_sameLink {i : Instr} (owned : ownedRow i) (notResync : i ≠ .resync) (h : exec i s = .next t) :
    SameLink s t := by
  obtain ⟨is, owner, notNamed, answers, row⟩ := ownedRow_offLink owned notResync
  cases (row s).symm.trans h
  refine State.whileOn_keeps (.refl s) (State.execute_keeps (.refl s) fun q executable named => ?_)
  obtain ⟨-, -, head⟩ := State.executable_eq_some.mp executable
  have other : ∀ r, s.mgmt.requests.head? = some r → r.command ≠ Config.cmdResync := by
    rintro r first command
    cases head.symm.trans first
    rw [command, notNamed] at named
    cases named
  obtain ⟨x, refused⟩ | ⟨u, data, apart, carried⟩ := answers s q.params
  · rw [refused]
    exact sameLink_complete s _ fun r first command => absurd command (other r first)
  · rw [carried]
    refine apart.sameLink.trans (sameLink_complete u _ fun r first command => ?_)
    rw [apart.mgmt] at first
    exact absurd command (other r first)

/-! ### The commands, by the order of the link -/

/-- The link as `f` makes it, the Response Queue as it was. -/
theorem linkOk_of_link (power : t.power = s.power) (mgmt : t.mgmt = s.mgmt)
    (ok : t.link.inOrder s.power s.downOrdered) : t.linkOk := by
  rw [State.linkOk_iff, State.downOrdered, power, mgmt]
  exact ok

section
variable (ok : s.linkOk)
include ok

theorem linkOk_inOrder : s.link.inOrder s.power s.downOrdered := s.linkOk_iff.mp ok

theorem linkOk_endInbound : s.endInbound.linkOk := linkOk_of_link rfl rfl ((linkOk_inOrder ok).setReception _)

theorem linkOk_offerMirror (m : SampleFrame) : (s.offerMirror m).linkOk := by
  unfold State.offerMirror
  split
  · rename_i place
    exact linkOk_of_link rfl rfl ((linkOk_inOrder ok).addCopy place.1 place.2 m)
  · exact (offLink_raise s (by decide)).sameLink.linkOk ok

theorem linkOk_handleInlet (f : RawFrame) : (s.handleInlet f).linkOk := by
  obtain ⟨u, apart, same | ⟨m, copied⟩⟩ := s.handleInlet_cases f
  · exact same ▸ apart.sameLink.linkOk ok
  · exact copied ▸ linkOk_offerMirror (apart.sameLink.linkOk ok) m

theorem linkOk_takeAck (ack : BitVec 6) (grant : Nat) (resend : Bool) : (s.takeAck ack grant resend).linkOk := by
  have side := eventSide_framesDelivered s (s.link.ackedFrames ack)
  rw [State.takeAck_eq]
  exact linkOk_of_link side.power side.mgmt ((linkOk_inOrder ok).acked ack grant resend)

/-- The ack timer expires in UP: a timed round, or the stall (R141, R143). -/
theorem linkOk_ackExpiry (up : s.link.state = .up) (runs : s.link.ackTimer.isSome) : s.ackExpiry.linkOk := by
  have order := linkOk_inOrder ok
  unfold State.ackExpiry
  split
  · rename_i below
    have raised : Link.inOrder s.power s.downOrdered { s.link with roundCount := s.link.roundCount + 1 } :=
      { order with rounds := below }
    exact linkOk_of_link rfl rfl (raised.beginRound up (order.ack.mp runs).2)
  · exact linkOk_of_link rfl rfl (order.stall up runs)

/-- A transmission completes: the lane is free, and a RESYNC's response brings the link DOWN (R130, R148). -/
theorem linkOk_completeTransmission (running : s.power = .running) : s.completeTransmission.linkOk := by
  have order := linkOk_inOrder ok
  unfold State.completeTransmission
  dsimp only
  cases resync : s.link.laneResync with
  | some tag =>
    have empty : s.link.replay = [] := order.emptyResync (.inl (by rw [resync]; rfl))
    exact linkOk_of_link rfl rfl (Link.inOrder_enterDown (l := { s.link with lane := none, laneResync := none })
      running _ empty nofun)
  | none => exact linkOk_of_link rfl rfl (order.freeLane resync)

/-- The head response leaves the queue; the order it may give stays with the lane (R148, R167). -/
theorem linkOk_sendResponse (free : s.link.lane = none) {r : Response} {rest : List Response}
    (head : s.mgmt.responses = r :: rest) :
    State.linkOk (({ s with mgmt := { s.mgmt with responses := rest } }.transmit (.response r)).modLink fun l =>
      { l with laneResync := if r.ordersDown then some r.tag else none }) := by
  have order := linkOk_inOrder ok
  have idle : ¬ s.link.laneResync.isSome := fun resync => by
    have := order.lane resync
    rw [free] at this
    cases this
  have moved : ((if r.ordersDown then some r.tag else none).isSome ∨ ∃ x ∈ rest, x.ordersDown = true) ↔
      s.link.laneResync.isSome ∨ s.downOrdered := by
    simp only [State.downOrdered, head, List.mem_cons, exists_eq_or_imp]
    cases r.ordersDown <;> simp [idle]
  rw [State.linkOk_iff]
  exact { order with
    emptyResync := fun resync => order.emptyResync (moved.mp resync)
    stalled := fun stalled => (order.stalled stalled).imp_right moved.mpr
    lane := fun _ => rfl }

theorem linkOk_buildEvent (granted : s.laneGrant = some .event) : s.buildEvent.linkOk := by
  have order := linkOk_inOrder ok
  obtain ⟨free, ⟨up, -, room, some⟩, first⟩ := (s.laneGrant_iff _).mp granted
  have silent : s.mgmt.responses = [] := Decidable.not_not.mp (first .response (by decide))
  have quiet : ¬ (s.link.laneResync.isSome ∨ s.downOrdered) := by
    rintro (resync | ⟨r, mem, -⟩)
    · have := order.lane resync
      rw [free] at this
      cases this
    · rw [silent] at mem
      cases mem
  have least : 1 ≤ s.events.head.length := by
    rw [Events.head, List.length_take]
    exact Nat.le_min.mpr ⟨by decide, List.length_pos_iff.mpr some⟩
  refine linkOk_of_link (s := s) rfl rfl ?_
  exact order.sendEvent up quiet room (f := { seq := s.link.nextSeq, records := s.events.head }) rfl least
    s.events.head_length_le

/-- RESYNC: carried out, its response orders the link DOWN and finds the Replay Buffer empty; refused, it orders nothing
(R148). -/
theorem linkOk_resync {q : Request} (head : s.mgmt.requests.head? = some q) (named : q.command = Config.cmdResync) :
    ((ownResync s q.params).state.complete (ownResync s q.params).status (ownResync s q.params).data).linkOk := by
  unfold ownResync
  split
  · have mgmt := (sameReceivers_applyResync s).mgmt
    obtain ⟨rest, requests⟩ := List.head?_eq_some_iff.mp head
    have ordered : (s.applyResync.complete .ok []).downOrdered := by
      refine ⟨{ tag := q.tag, command := q.command, status := .ok, replayed := false, data := [] }, ?_,
        (Response.ordersDown_iff _).mpr ⟨named, rfl, rfl⟩⟩
      rw [(State.complete_of_head (s := s.applyResync) (q := q) (rest := rest) (by rw [mgmt, requests]) .ok []).2]
      exact List.mem_append_right _ (List.mem_singleton_self _)
    show (s.applyResync.complete .ok []).linkOk
    rw [State.linkOk_iff, State.complete_link, State.complete_power, State.applyResync_link,
      s.applyResync_frame.1, eq_true ordered]
    exact (linkOk_inOrder ok).resynced
  · exact (sameLink_complete s (x := .badLength) [] fun _ _ _ => nofun).linkOk ok

/-- An arriving request restarts the part, or is answered or queued; a replayed answer orders nothing (R155–R160). -/
theorem linkOk_takeRequest (running : s.power = .running) (q : Request) : (s.takeRequest q).linkOk := by
  have order := linkOk_inOrder ok
  unfold State.takeRequest
  dsimp only
  split
  · rw [State.restart_takeDueSwap, State.linkOk_iff]
    have entered := Link.inOrder_enterDown (ordered := (s.restart q.tag).downOrdered)
      (l := { s.link with replay := [], reception := .hunting, laneResync := none }) running (.restart q.tag) rfl nofun
    exact entered
  · exact (sameLink_answerAtArrival s (by simp [Response.ordersDown]) _).linkOk ok
  · exact (sameLink_answerAtArrival s (by simp [Response.ordersDown]) _).linkOk ok
  · exact (sameLink_answerAtArrival { s with mgmt := _ } (by simp [Response.ordersDown]) _).linkOk ok
  · exact ok

end

theorem linkOk_heldIn (cause : PowerCause) : (State.heldIn cause).linkOk := by
  rw [State.linkOk_iff]
  constructor <;> simp [State.heldIn, State.downOrdered, numbered]

/-- The release of a held part begins the announce cycle (R127, R150). -/
theorem linkOk_released (cause : PowerCause) : (State.released cause).linkOk :=
  (State.linkOk_iff _).mpr (Link.inOrder_enterDown rfl _ rfl nofun)

theorem linkOk_exec {i : Instr} (mgmt : s.mgmtOk) (ok : s.linkOk) (h : exec i s = .next t) : t.linkOk := by
  have order := linkOk_inOrder ok
  have on : ∀ {f : State → State}, (s.power = .running → (f s).linkOk) → (s.whileOn f).linkOk :=
    State.whileOn_keeps_running ok
  have apart : ∀ {u : State}, OffLink s u → u.linkOk := fun apart => apart.sameLink.linkOk ok
  by_cases owned : ownedRow i ∧ i ≠ .resync
  · exact (exec_owned_sameLink owned.1 owned.2 h).linkOk ok
  cases i with
  | powerReset cause =>
    cases h
    exact linkOk_heldIn cause
  | resetNRelease =>
    cases power : s.power with
    | held cause =>
      cases (exec_release_of_held power).symm.trans h
      exact linkOk_released cause
    | running =>
      cases (exec_release_of_running power).symm.trans h
      exact ok
  | sampleFrame f =>
    cases h
    exact on fun _ => (offLink_modInlet _ _).sameLink.linkOk
      (linkOk_handleInlet ((sameLink_takeDueSwap mgmt).linkOk ok) f)
  | inletTruncation =>
    cases h
    refine on fun _ => ?_
    split
    · exact apart ((offLink_modInlet s _).trans (offLink_raise _ (by decide)))
    · exact ok
  | silenceTimerExpiry source =>
    cases h
    refine on fun _ => ?_
    split
    · split
      · exact apart (offLink_declareSilent s _)
      · exact ok
    · exact ok
  | quietTimerExpiry c =>
    cases h
    refine on fun _ => ?_
    split
    · exact apart (channelSide_driftStep (P := (· = c)) s c rfl).offLink
    · exact ok
  | maxActiveExpiry c =>
    cases h
    refine on fun _ => ?_
    split
    · exact apart (channelSide_stuckExpiry (P := (· = c)) s c rfl).offLink
    · exact ok
  | ackFrame f =>
    cases h
    refine on fun _ => ?_
    split
    · exact linkOk_takeAck (linkOk_endInbound ok) _ _ _
    all_goals exact ok
  | inboundDiscard f =>
    cases h
    refine on fun _ => ?_
    split
    · exact (offLink_raise _ (by decide)).sameLink.linkOk (linkOk_endInbound ok)
    all_goals exact ok
  | inboundTruncation =>
    cases h
    refine on fun _ => ?_
    split
    · exact (offLink_raise _ (by decide)).sameLink.linkOk (linkOk_endInbound ok)
    · exact ok
  | ackTimerExpiry =>
    cases h
    refine on fun _ => ?_
    split
    · rename_i due
      exact linkOk_ackExpiry ok due.1 (by rw [beq_iff_eq.mp due.2]; rfl)
    · exact ok
  | announceTimerExpiry =>
    cases h
    refine on fun running => ?_
    split
    · rename_i due
      exact linkOk_of_link rfl rfl (order.announceExpiry due.1 running)
    · exact ok
  | holdTimerExpiry =>
    cases h
    refine on fun _ => ?_
    split <;> exact ok
  | transmissionComplete =>
    cases h
    refine on fun running => ?_
    split
    · exact linkOk_completeTransmission ok running
    · exact ok
  | responseFrameSend =>
    cases h
    refine on fun _ => ?_
    split
    · rename_i granted head
      exact linkOk_sendResponse ok ((s.laneGrant_iff _).mp granted).1 head
    · exact ok
  | announceFrameSend =>
    cases h
    refine on fun _ => ?_
    split
    · exact linkOk_of_link rfl rfl (order.sendAnnounce _)
    · exact ok
  | retransmittedFrame =>
    cases h
    refine on fun _ => ?_
    split
    · exact linkOk_of_link rfl rfl (order.resend _)
    · exact ok
  | newEventFrame =>
    cases h
    refine on fun _ => ?_
    split
    · exact linkOk_buildEvent ok (by assumption)
    · exact ok
  | mirrorFrameSend =>
    cases h
    refine on fun _ => ?_
    split
    · rename_i head
      exact linkOk_of_link rfl rfl (order.sendCopy head _)
    · exact ok
  | requestFrame f =>
    cases h
    refine on fun running => ?_
    split
    · exact linkOk_takeRequest (linkOk_endInbound ok) running _
    all_goals exact ok
  | swapRoutes =>
    cases h
    refine on fun _ => ?_
    split
    · rename_i executable
      split
      · rename_i named
        exact (sameLink_beginSwap (State.executable_eq_some.mp executable).2.2 named _).linkOk ok
      · exact ok
    · exact ok
  | swapTaken =>
    cases h
    exact on fun _ => (sameLink_takeDueSwap mgmt).linkOk ok
  | timeBaseTick =>
    cases h
    exact on fun _ => linkOk_of_link rfl rfl (order.tick _)
  | inletSyncPair =>
    cases h
    exact on fun _ => ok
  | inboundSyncPair =>
    cases h
    exact on fun _ => linkOk_of_link rfl rfl (order.setReception _)
  | resync =>
    cases h
    exact on fun _ => State.execute_keeps ok fun q executable named =>
      linkOk_resync ok (State.executable_eq_some.mp executable).2.2 (beq_iff_eq.mp named)
  | unknownCommand => exact absurd ⟨⟨.inr (.inl rfl), nofun⟩, nofun⟩ owned
  | restartWithParameters => exact absurd ⟨⟨.inr (.inr rfl), nofun⟩, nofun⟩ owned
  | _ => exact absurd ⟨⟨.inl rfl, nofun⟩, nofun⟩ owned

end

/-- Settles O58: each command by what it makes of the link, or by the link's being as it was. A swap's completion orders no
entry into DOWN because the request at the head is a SWAP_ROUTES, which is all that is used of the Management Unit. -/
theorem stepKeepsLinkOk : Obligations.StepKeepsLinkOk := by
  intro s t mgmt ok stepped
  obtain rfl | ⟨i, rest, executed⟩ := step_cases stepped
  · exact ok
  · exact linkOk_exec (s := { s with pending := rest }) mgmt ok executed

end Sys2Proof.Machine
end

section
/-! Ack Frames (R120, R128, R129, R132, R133, R136–R139, R144), the expiries of ack, announce and hold timer (R128, R139–R143,
R179), and completed transmissions (R127, R130, R148). -/

namespace Sys2Proof.Machine

/-! ### Ack Frames -/

section
variable {s : State} {f : RawFrame} {a : AckFields}

theorem exec_ackFrame (running : s.power = .running) (frame : checkInbound f = .ack a) :
    exec (.ackFrame f) s = .next (s.endInbound.takeAck a.ack a.grant a.resend) := by
  refine (next_whileOn running _).trans ?_
  simp only [frame]

/-- An Ack Frame taken: what the Event Unit makes of the removed frames, and the link. -/
theorem exec_ackFrame_eq (running : s.power = .running) (frame : checkInbound f = .ack a) :
    exec (.ackFrame f) s = .next
      { s.framesDelivered (s.link.ackedFrames a.ack) with
        link := Link.acked { s.link with reception := .hunting } a.ack a.grant a.resend } := by
  rw [exec_ackFrame running frame, State.takeAck_eq]
  have told := framesDelivered_modLink s (fun l => { l with reception := .hunting }) (s.link.ackedFrames a.ack)
  exact congrArg (fun u : State => Host.Outcome.next
    { u with link := Link.acked { s.link with reception := .hunting } a.ack a.grant a.resend }) told

end

/-- The frames that a number removes: the named one and every older one (R136). -/
theorem ackedCount_named {older newer : List EventFrame} {named : EventFrame} {ack : BitVec 6} (seq : named.seq = ack)
    (first : ∀ x ∈ older, x.seq ≠ ack) : ackedCount (older ++ named :: newer) ack = older.length + 1 := by
  unfold ackedCount
  have found : (older ++ named :: newer).findIdx? (·.seq == ack) = some older.length := by
    rw [List.findIdx?_append, List.findIdx?_eq_none_iff.mpr (by simpa using first), List.findIdx?_cons]
    simp [seq]
  rw [found]

section
variable {l : Link} {ack : BitVec 6} {removed remaining : List EventFrame} (buffer : l.replay = removed ++ remaining)
  (count : ackedCount l.replay ack = removed.length)
include buffer count

theorem Link.ackedFrames_eq (undown : l.state ≠ .down) : l.ackedFrames ack = removed := by
  rw [Link.ackedFrames, if_neg undown, count, buffer, List.take_left]

theorem Link.dropAcked_eq :
    l.dropAcked (ackedCount l.replay ack) =
      { l with replay := remaining, roundLeft := min l.roundLeft remaining.length } := by
  rw [count, Link.dropAcked, buffer, List.drop_left]

/-- In STALLED: UP with round count 0, and a round of what remains (R144). -/
theorem Link.acked_stalled (stalled : l.state = .stalled) (grant : Nat) (resend : Bool) :
    l.acked ack grant resend = { l with
      state := .up, replay := remaining, roundCount := 0, credits := min (l.credits + grant) 31
      roundLeft := remaining.length
      ackTimer := if remaining = [] then none else some 20 } := by
  rw [Link.acked, stalled]
  dsimp only
  rw [Link.ackedInStalled, Link.dropAcked_eq buffer count]
  by_cases empty : remaining = []
  · subst empty
    simp [Link.grant, Config.creditMax]
  · simp [empty, Link.grant, Link.beginRound, Config.creditMax, Config.ackTime]

/-- In UP, frames removed: round count 0, the ack timer restarted or stopped, and the round asked for (R136, R138). -/
theorem Link.acked_up (up : l.state = .up) (removes : removed ≠ []) (grant : Nat) (resend : Bool) :
    l.acked ack grant resend = { l with
      replay := remaining, roundCount := 0, credits := min (l.credits + grant) 31
      roundLeft := if resend then remaining.length else min l.roundLeft remaining.length
      ackTimer := if remaining = [] then none else some 20 } := by
  have named : ackedCount l.replay ack ≠ 0 := by rw [count]; simpa using removes
  rw [Link.acked, up]
  dsimp only
  rw [Link.ackedInUp, if_neg named, Link.dropAcked_eq buffer count]
  by_cases empty : remaining = []
  · subst empty
    simp [Link.grant, Link.progress, Config.creditMax, up]
  · cases resend <;> simp [empty, up, Link.grant, Link.progress, Link.beginRound, Config.creditMax, Config.ackTime]

end

/-- In UP, a number that names no frame: the grant, and the round asked for (R137–R139). -/
theorem Link.acked_up_none {l : Link} {ack : BitVec 6} (unnamed : ackedCount l.replay ack = 0) (up : l.state = .up)
    (within : l.roundLeft ≤ l.replay.length) (grant : Nat) (resend : Bool) :
    l.acked ack grant resend = { l with
      credits := min (l.credits + grant) 31
      roundLeft := if resend = true ∧ l.replay ≠ [] then l.replay.length else l.roundLeft
      ackTimer := if resend = true ∧ l.replay ≠ [] then some 20 else l.ackTimer } := by
  have same : l.dropAcked (ackedCount l.replay ack) = l := by
    rw [Link.dropAcked_eq (removed := []) rfl unnamed, Nat.min_eq_left within]
  rw [Link.acked, up]
  dsimp only
  rw [Link.ackedInUp, if_pos unnamed, same]
  by_cases empty : l.replay = []
  · simp [empty, Link.grant, Config.creditMax, up]
  · cases resend <;> simp [empty, Link.grant, Link.beginRound, Config.creditMax, Config.ackTime, up]

/-- The number names the last frame of `removed`, or no frame, and then none is removed. -/
theorem ackedCount_removed {removed remaining : List EventFrame} {ack : BitVec 6}
    (named : (removed = [] ∧ (∀ x ∈ remaining, x.seq ≠ ack)) ∨
      (∃ older named, removed = older ++ [named] ∧ named.seq = ack ∧ ∀ x ∈ older, x.seq ≠ ack)) :
    ackedCount (removed ++ remaining) ack = removed.length := by
  obtain ⟨rfl, none⟩ | ⟨older, named, rfl, seq, first⟩ := named
  · exact ackedCount_eq_zero none
  · rw [List.append_assoc, List.singleton_append, ackedCount_named seq first, List.length_append]
    rfl

/-- Settles O31: the link's state decides, and in STALLED the number splits the buffer. -/
theorem ackInDownAndStalled : Obligations.AckInDownAndStalled := by
  refine ⟨fun s f a running down frame => ?_, fun s f a removed remaining running stalled frame buffer named => ?_⟩
  · have frames : s.link.ackedFrames a.ack = [] := if_pos down
    have link : Link.acked { s.link with reception := .hunting } a.ack a.grant a.resend =
        (Link.grant { s.link with reception := .hunting } a.grant).comeUp := by rw [Link.acked, down]
    rw [exec_ackFrame_eq running frame, frames, link]
    rfl
  · have count : ackedCount s.link.replay a.ack = removed.length := buffer ▸ ackedCount_removed named
    have link := Link.acked_stalled (l := { s.link with reception := .hunting }) buffer count stalled a.grant a.resend
    rw [exec_ackFrame_eq running frame, Link.ackedFrames_eq buffer count (by rw [stalled]; nofun), link]

/-- Settles O32: the number names a frame, which splits the buffer, or it names none. -/
theorem ackInUp : Obligations.AckInUp := by
  refine ⟨fun s f a older named newer running up frame buffer seq first => ?_, fun s f a running up frame unnamed within => ?_⟩
  · have buffer : s.link.replay = (older ++ [named]) ++ newer := by simpa using buffer
    have count : ackedCount s.link.replay a.ack = (older ++ [named]).length :=
      buffer ▸ ackedCount_removed (.inr ⟨older, named, rfl, seq, first⟩)
    have link := Link.acked_up (l := { s.link with reception := .hunting }) buffer count up (by simp) a.grant a.resend
    rw [exec_ackFrame_eq running frame, Link.ackedFrames_eq buffer count (by rw [up]; nofun), link]
  · have count := ackedCount_eq_zero unnamed
    have link := Link.acked_up_none (l := { s.link with reception := .hunting }) count up within a.grant a.resend
    rw [exec_ackFrame_eq running frame, Link.ackedFrames_eq (removed := []) rfl count (by rw [up]; nofun), link]
    rfl

/-! ### Expiries of ack, announce and hold timer -/

/-- Settles O33, expiry by expiry. -/
theorem linkAndHoldTimerExpiries : Obligations.LinkAndHoldTimerExpiries := by
  refine ⟨fun s running up due => ?_, fun s running => ⟨fun down due => ?_, fun due => ?_⟩⟩
  · have expires : exec .ackTimerExpiry s = .next s.ackExpiry :=
      (next_whileOn running _).trans (congrArg _ (if_pos ⟨up, by rw [due]; rfl⟩))
    rw [expires, State.ackExpiry]
    exact ⟨fun below => congrArg _ (if_pos below),
      fun limit => congrArg _ (if_neg (Nat.not_lt.mpr (Nat.le_of_eq limit.symm)))⟩
  · exact (next_whileOn running _).trans (congrArg _ (if_pos ⟨down, by rw [due]; rfl⟩))
  · exact (next_whileOn running _).trans (congrArg _ (if_pos (by rw [due]; rfl)))

/-! ### Completed transmissions -/

/-- Settles O34: with a RESYNC's response the link enters DOWN. -/
theorem transmissionCompleteFreesLane : Obligations.TransmissionCompleteFreesLane := by
  intro s running busy
  have completes : exec .transmissionComplete s = .next s.completeTransmission :=
    (next_whileOn running _).trans (congrArg _ (if_pos (Option.isSome_iff_ne_none.mpr busy)))
  rw [completes, State.completeTransmission]
  refine ⟨fun other => ?_, fun tag resync => ?_⟩
  · rw [other]
    exact congrArg (fun resync => Host.Outcome.next { s with link := { s.link with lane := none, laneResync := resync } })
      other.symm
  · rw [resync]
    rfl

end Sys2Proof.Machine
end

section
/-! The send rows by the arbiter's order, the bytes on OUTLET_TX (R128, R130, R131, R140, R145, R148, R167, R186–R190), and a
new Event Frame against its credit (R131–R134, R139). -/

namespace Sys2Proof.Machine

/-! ### A row with and without the lane's grant (R130, R131) -/

/-- The row that sends the frame of a class. -/
def LaneClass.row : LaneClass → Instr
  | .response => .responseFrameSend
  | .announce => .announceFrameSend
  | .retransmission => .retransmittedFrame
  | .event => .newEventFrame
  | .mirror => .mirrorFrameSend

section
variable {s : State}

/-- A send row without the lane's grant changes nothing. -/
theorem exec_row_idle {k : LaneClass} (refused : s.laneGrant ≠ some k) : exec k.row s = .next s :=
  send_without_grant s k.row k (by cases k <;> simp [LaneClass.row]) refused

theorem exec_row_busy (busy : s.link.lane ≠ none) (k : LaneClass) : exec k.row s = .next s :=
  exec_row_idle fun granted => busy ((s.laneGrant_iff k).mp granted).1

theorem exec_row_absent {k : LaneClass} (absent : ¬ s.present k) : exec k.row s = .next s :=
  exec_row_idle fun granted => absent ((s.laneGrant_iff k).mp granted).2.1

theorem exec_row_outranked {j k : LaneClass} (higher : j.place < k.place) (present : s.present j) :
    exec k.row s = .next s :=
  exec_row_idle fun granted => ((s.laneGrant_iff k).mp granted).2.2 j higher present

/-- A frame present holds back the rows of every lower class. -/
theorem rows_outranked {j : LaneClass} (present : s.present j) {classes : List LaneClass}
    (lower : ∀ k ∈ classes, j.place < k.place) : ∀ i ∈ classes.map LaneClass.row, exec i s = .next s := by
  intro i mem
  obtain ⟨k, below, rfl⟩ := List.mem_map.mp mem
  exact exec_row_outranked (lower k below) present

theorem rows_busy (busy : s.link.lane ≠ none) (classes : List LaneClass) :
    ∀ i ∈ classes.map LaneClass.row, exec i s = .next s := by
  intro i mem
  obtain ⟨k, -, rfl⟩ := List.mem_map.mp mem
  exact exec_row_busy busy k

/-! ### The rows that send (R128, R140, R145, R148, R167) -/

section
variable (running : s.power = .running) (free : s.link.lane = none)
include running free

theorem exec_responseFrameSend {r : Response} {rest : List Response} (head : s.mgmt.responses = r :: rest) :
    exec .responseFrameSend s = .next { s with
      mgmt := { s.mgmt with responses := rest }
      link := { s.link with
        lane := some (.response r), laneResync := if r.ordersDown then some r.tag else none } } := by
  have granted : s.laneGrant = some .response :=
    (s.laneGrant_iff _).mpr ⟨free, by simp [State.present, head], by simp [LaneClass.place]⟩
  refine (next_whileOn running _).trans ?_
  simp only [granted, head]
  rfl

variable (silent : s.mgmt.responses = [])
include silent

theorem exec_announceFrameSend (down : s.link.state = .down) (due : s.link.announceDue = true) :
    exec .announceFrameSend s = .next { s with link := { s.link with
      announceDue := false, lane := some (.announce s.link.resetCause s.time) } } := by
  have granted : s.laneGrant = some .announce :=
    (s.laneGrant_iff _).mpr ⟨free, ⟨down, due⟩, by simp [LaneClass.forall_iff, LaneClass.place, State.present, silent]⟩
  exact (next_whileOn running _).trans (congrArg _ (if_pos granted))

variable (up : s.link.state = .up)
include up

theorem exec_retransmittedFrame {resent : List EventFrame} {f : EventFrame} {later : List EventFrame}
    (buffer : s.link.replay = resent ++ f :: later) (left : s.link.roundLeft = later.length + 1) :
    exec .retransmittedFrame s = .next { s with
      link := { s.link with roundLeft := later.length, lane := some (.event f) }
      counters := s.counters.raiseBy .retransmitted 1 } := by
  have granted : s.laneGrant = some .retransmission :=
    (s.laneGrant_iff _).mpr ⟨free, by simp [State.present, left], by
      simp [LaneClass.forall_iff, LaneClass.place, State.present, silent, up]⟩
  have next : s.link.roundFrame = some f := by simp [Link.roundFrame, buffer, left]
  have rest : s.link.roundLeft - 1 = later.length := Nat.sub_eq_of_eq_add left
  refine (next_whileOn running _).trans ?_
  simp only [granted, next, ← rest]
  rfl

theorem exec_mirrorFrameSend (settled : s.link.roundLeft = 0)
    (noEvent : s.link.credits = 0 ∨ 4 ≤ s.link.replay.length ∨ s.events.queue = []) {m : SampleFrame}
    {rest : List SampleFrame} (head : s.link.mirror = m :: rest) :
    exec .mirrorFrameSend s = .next { s with
      link := { s.link with mirror := rest, lane := some (.mirror m) }
      counters := s.counters.raiseBy .mirrorSent 1 } := by
  have absent : ¬ s.present .event := by
    rintro ⟨-, credit, room, queued⟩
    obtain zero | full | empty := noEvent
    · exact absurd zero (Nat.ne_of_gt credit)
    · exact absurd full (Nat.not_le.mpr room)
    · exact queued empty
  have granted : s.laneGrant = some .mirror :=
    (s.laneGrant_iff _).mpr ⟨free, ⟨up, by simp [head]⟩, by
      simp only [LaneClass.forall_iff, absent]
      simp [LaneClass.place, State.present, silent, up, settled]⟩
  refine (next_whileOn running _).trans ?_
  simp only [granted, head]
  rfl

/-- A new Event Frame, granted the lane (R134). -/
theorem exec_newEventFrame (settled : s.link.roundLeft = 0) (credit : 1 ≤ s.link.credits)
    (room : s.link.replay.length < 4) (queued : s.events.queue ≠ []) :
    exec .newEventFrame s = .next s.buildEvent := by
  have granted : s.laneGrant = some .event :=
    (s.laneGrant_iff _).mpr ⟨free, ⟨up, credit, room, queued⟩, by
      simp [LaneClass.forall_iff, LaneClass.place, State.present, silent, up, settled]⟩
  exact (next_whileOn running _).trans (congrArg _ (if_pos granted))

end

end

/-- Settles O35: the rows with the lane's grant, the rows without it, the bytes of each frame, and the CRC. -/
theorem waitingFramesSent : Obligations.WaitingFramesSent := by
  refine ⟨fun s r rest running free head => ?_, fun s running free silent => ⟨?_, ?_, ?_⟩, fun s => ?_, fun s => ?_,
    rfl, crc16_snoc⟩
  · rw [exec_responseFrameSend running free head]
    simp only [Response.ordersDown_iff]
    rfl
  · exact exec_announceFrameSend running free silent
  · exact fun _ _ _ up => exec_retransmittedFrame running free silent up
  · exact fun _ _ up settled noEvent head => exec_mirrorFrameSend running free silent up settled noEvent head
  · intro rows
    refine ⟨fun busy => ?_, fun waits => ?_, fun down due => ?_, fun left => ?_, fun up credit room queued => ?_, fun empty => ?_,
      fun other => ?_, fun none => ?_, fun other => ?_⟩
    · exact rows_busy busy [.response, .announce, .retransmission, .event, .mirror]
    · exact rows_outranked (j := .response) waits (classes := [.announce, .retransmission, .event, .mirror]) (by decide)
    · exact rows_outranked (j := .announce) ⟨down, due⟩ (classes := [.retransmission, .event, .mirror]) (by decide)
    · exact rows_outranked (j := .retransmission) left (classes := [.event, .mirror]) (by decide)
    · exact exec_row_outranked (j := .event) (k := .mirror) (by decide) ⟨up, credit, room, queued⟩
    · exact exec_row_absent (k := .response) fun waits => waits empty
    · refine exec_row_absent (k := .announce) fun ⟨down, due⟩ => ?_
      exact other.elim (· down) fun notDue => absurd (notDue.symm.trans due) nofun
    · exact exec_row_absent (k := .retransmission) fun left => Nat.ne_of_gt left none
    · exact exec_row_absent (k := .mirror) fun ⟨up, mirrored⟩ => other.elim (· up) mirrored
  · refine ⟨fun free => ?_, fun r lane => ?_, fun cause tick lane => ?_, fun f lane => ?_, fun m lane => ?_, rfl,
      bytesOfLine_flatMap _⟩
    · rw [State.outletTx_eq, free]
    all_goals rw [State.outletTx_eq, lane]

/-! ### A new Event Frame against its credit (R131–R134, R139) -/

theorem Link.dropAcked_replay_length_le (l : Link) (n : Nat) : (l.dropAcked n).replay.length ≤ l.replay.length :=
  (List.length_drop (i := n) (l := l.replay)).trans_le (Nat.sub_le _ _)

/-- An Ack Frame adds no frame to the Replay Buffer. -/
theorem Link.acked_replay_length_le (l : Link) (ack : BitVec 6) (grant : Nat) (resend : Bool) :
    (l.acked ack grant resend).replay.length ≤ l.replay.length := by
  have fewer := l.dropAcked_replay_length_le (ackedCount l.replay ack)
  have progress : ∀ m : Link, m.progress.replay = m.replay := fun m => by unfold Link.progress; split <;> rfl
  unfold Link.acked
  cases l.state with
  | down => exact Nat.le_refl _
  | up =>
    unfold Link.ackedInUp
    dsimp only
    split <;> split <;> simpa [Link.grant, Link.beginRound, progress] using fewer
  | stalled =>
    unfold Link.ackedInStalled
    dsimp only
    split <;> exact fewer

/-- Without credit no command puts a frame into the Replay Buffer (R132). -/
theorem exec_replay_length_le {i : Instr} {s t : State} (noCredit : s.link.credits = 0) (h : exec i s = .next t) :
    t.link.replay.length ≤ s.link.replay.length := by
  have on : ∀ {f : State → State}, (f s).link.replay.length ≤ s.link.replay.length →
      (s.whileOn f).link.replay.length ≤ s.link.replay.length :=
    State.whileOn_keeps (P := fun u => u.link.replay.length ≤ s.link.replay.length) (Nat.le_refl _)
  by_cases other : movesRecords i = false
  · rw [(exec_recordsEnter other h).replay]
  cases i with
  | powerReset cause =>
    cases h
    exact Nat.zero_le _
  | resetNRelease =>
    cases power : s.power with
    | held cause =>
      cases (exec_release_of_held power).symm.trans h
      exact Nat.zero_le _
    | running =>
      cases (exec_release_of_running power).symm.trans h
      exact Nat.le_refl _
  | requestFrame f =>
    cases h
    refine on ?_
    split
    · unfold State.takeRequest
      dsimp only
      split
      · exact Nat.zero_le _
      all_goals simp [State.endInbound]
    all_goals exact Nat.le_refl _
  | ackFrame f =>
    cases h
    refine on ?_
    split
    · rw [State.takeAck_eq]
      exact Link.acked_replay_length_le _ _ _ _
    all_goals exact Nat.le_refl _
  | newEventFrame =>
    cases (exec_row_absent (s := s) (k := .event) fun ⟨_, credit, _⟩ => absurd noCredit (Nat.ne_of_gt credit)).symm.trans h
    exact Nat.le_refl _
  | resync =>
    cases h
    refine on (State.execute_keeps (P := fun u => u.link.replay.length ≤ s.link.replay.length) (Nat.le_refl _)
      fun q _ _ => ?_)
    rw [State.complete_link]
    unfold ownResync
    split
    · rw [show (s.applyResync.accept []).state.link = _ from s.applyResync_link]
      exact Nat.zero_le _
    · exact Nat.le_refl _
  | _ => exact absurd rfl other

/-- Without credit no command raises the count of frames sent first time (R132). -/
theorem exec_framesSent_le {i : Instr} {s t : State} (noCredit : s.link.credits = 0) (h : exec i s = .next t) :
    (t.counters.get .framesSent).toNat ≤ (s.counters.get .framesSent).toNat := by
  by_cases other : resetsOrSends i = false
  · exact (exec_runsOn other h).sent
  cases i with
  | powerReset cause =>
    cases h
    exact (CounterBank.get_initial .framesSent) ▸ Nat.zero_le _
  | resetNRelease =>
    cases power : s.power with
    | held cause =>
      cases (exec_release_of_held power).symm.trans h
      exact (CounterBank.get_initial .framesSent) ▸ Nat.zero_le _
    | running =>
      cases (exec_release_of_running power).symm.trans h
      exact Nat.le_refl _
  | newEventFrame =>
    cases (exec_row_absent (s := s) (k := .event) fun ⟨_, credit, _⟩ => absurd noCredit (Nat.ne_of_gt credit)).symm.trans h
    exact Nat.le_refl _
  | _ => exact absurd rfl other

/-- Settles O36: the frame as it is built, what no command does without credit, and the row without a grant. -/
theorem newEventFrameBuiltAgainstCredit : Obligations.NewEventFrameBuiltAgainstCredit := by
  refine ⟨fun s running free silent up settled credit room queued => ?_, fun s t i noCredit h =>
    ⟨exec_replay_length_le noCredit h, exec_framesSent_le noCredit h⟩, fun s refused => ?_⟩
  · refine ⟨_, exec_newEventFrame running free silent up settled credit room queued, ?_, rfl⟩
    rw [State.outletTx_eq]
    rfl
  · refine exec_row_idle (k := .event) fun granted => ?_
    obtain ⟨free, ⟨up, credit, room, queued⟩, first⟩ := (s.laneGrant_iff _).mp granted
    obtain busy | waits | other | left | zero | full | empty := refused
    · exact busy free
    · exact first .response (by decide) waits
    · exact other up
    · exact first .retransmission (by decide) left
    · exact Nat.ne_of_gt credit zero
    · exact Nat.not_le.mpr room full
    · exact queued empty

end Sys2Proof.Machine
end

section
/-! The state right after reset against every invariant of the model (R150, assumption 1). -/

namespace Sys2Proof.Machine

/-- The part held by a power reset, with the link's announce cycle begun, is the part right after reset. -/
theorem State.reset_eq : State.reset = State.released .power := rfl

theorem mgmtOk_heldIn (cause : PowerCause) : (State.heldIn cause).mgmtOk := by
  simp [State.mgmtOk, State.heldIn, State.reserved]

/-- Settles O6: power, link and announce cycle are all in which this state differs from a held part. -/
theorem resetStateMeetsInvariants : Obligations.ResetStateMeetsInvariants :=
  ⟨channelsConsistent_heldIn .power, levelsInRange_heldIn .power, groupsConsistent_heldIn .power, routesOk_heldIn .power,
    (Events.ordered_iff _).mpr Events.initial_ordered, (State.oneValueEach_iff _).mpr Events.initial_oneValue,
    State.reset_eq ▸ linkOk_released .power, mgmtOk_heldIn .power, alertOk_heldIn .power, nofun,
    rfl, rfl, rfl, rfl, rfl, rfl⟩

end Sys2Proof.Machine
end

section
/-! An arriving request, by what the arrival checks find (R155–R160). -/

namespace Sys2Proof.Machine

/-! ### The arrival checks (R155–R159) -/

section
variable {m : Mgmt} {q : Request} (named : q.command = Config.cmdRestart → q.params ≠ [])
include named

theorem Mgmt.arrival_of_tagInUse (used : ∃ p ∈ m.requests, p.tag = q.tag) : m.arrival q = .tagInUse := by
  rw [Mgmt.arrival, if_neg (not_and.mpr named), if_pos (by simpa using used)]

variable (fresh : ∀ p ∈ m.requests, p.tag ≠ q.tag)
include fresh

theorem Mgmt.arrival_of_hit {e : CacheEntry}
    (hit : m.cache.find? (fun e => e.tag == q.tag && e.command == q.command) = some e) :
    m.arrival q = .replay e := by
  rw [Mgmt.arrival, if_neg (not_and.mpr named), if_neg (by simpa using fresh), hit]

section
variable (miss : ∀ e ∈ m.cache, e.tag = q.tag → e.command ≠ q.command)
include miss

theorem Mgmt.arrival_of_miss :
    m.arrival q = if Config.requestCapacity ≤ m.requests.length then .busy else .queue := by
  have none : m.cache.find? (fun e => e.tag == q.tag && e.command == q.command) = none := by simpa using miss
  rw [Mgmt.arrival, if_neg (not_and.mpr named), if_neg (by simpa using fresh), none]

theorem Mgmt.arrival_of_crowded (crowded : Config.requestCapacity ≤ m.requests.length) : m.arrival q = .busy :=
  (Mgmt.arrival_of_miss named fresh miss).trans (if_pos crowded)

theorem Mgmt.arrival_of_room (room : m.requests.length < Config.requestCapacity) : m.arrival q = .queue :=
  (Mgmt.arrival_of_miss named fresh miss).trans (if_neg (Nat.not_le.mpr room))

end

end

/-- A request that no check turns away has passed all of them. -/
theorem Mgmt.checks_of_arrival_queue {m : Mgmt} {q : Request} (queued : m.arrival q = .queue) :
    (q.command = Config.cmdRestart → q.params ≠ []) ∧ (∀ p ∈ m.requests, p.tag ≠ q.tag) ∧
      (∀ e ∈ m.cache, e.tag = q.tag → e.command ≠ q.command) ∧ m.requests.length < Config.requestCapacity := by
  unfold Mgmt.arrival at queued
  split at queued
  · cases queued
  rename_i notRestart
  split at queued
  · cases queued
  rename_i fresh
  split at queued
  · cases queued
  rename_i miss
  split at queued
  · cases queued
  rename_i room
  exact ⟨not_and.mp notRestart, by simpa using fresh, by simpa using miss, Nat.not_le.mp room⟩

theorem cacheAfterCheck3_sublist (cache : List CacheEntry) (q : Request) : (cacheAfterCheck3 cache q).Sublist cache :=
  List.filter_sublist

/-- When the cache holds no answer to the request, check 3 leaves no entry of its tag (R158). -/
theorem cacheAfterCheck3_of_miss {cache : List CacheEntry} {q : Request}
    (miss : ∀ e ∈ cache, e.tag = q.tag → e.command ≠ q.command) :
    cacheAfterCheck3 cache q = cache.filter fun e => e.tag ≠ q.tag :=
  List.filter_congr fun e mem => by
    by_cases same : e.tag = q.tag
    · simp [same, miss e mem same]
    · simp [same]

/-! ### Answers made at arrival (R160) -/

section
variable {s : State}

theorem State.hasFreePlace_iff :
    s.hasFreePlace = true ↔ ¬ 4 ≤ s.mgmt.responses.length + (if s.inlet.swap = .none then 0 else 1) := by
  unfold State.hasFreePlace State.reserved
  by_cases swap : s.inlet.swap = .none <;> simp [swap, Config.responseCapacity, Nat.lt_succ_iff]

theorem State.answerAtArrival_of_full
    (full : 4 ≤ s.mgmt.responses.length + (if s.inlet.swap = .none then 0 else 1)) (r : Response)
    (k : Option GlobalCounter) : s.answerAtArrival r k = s.raise .discardedUnanswered :=
  if_neg fun place => State.hasFreePlace_iff.mp place full

variable (place : ¬ 4 ≤ s.mgmt.responses.length + (if s.inlet.swap = .none then 0 else 1)) (r : Response)
include place

theorem State.answerAtArrival_none_of_place : s.answerAtArrival r none = s.pushResponse r :=
  if_pos (State.hasFreePlace_iff.mpr place)

theorem State.answerAtArrival_some_of_place (k : GlobalCounter) :
    s.answerAtArrival r (some k) = (s.pushResponse r).raise k := if_pos (State.hasFreePlace_iff.mpr place)

end

/-! ### The command, by what the checks find -/

section
variable {s : State} {q : Request}

/-- The answer that a request gets at its arrival, carrying no data. -/
def Request.answer (q : Request) (x : Status) : Response :=
  { tag := q.tag, command := q.command, status := x, replayed := false, data := [] }

theorem State.takeRequest_of_tagInUse (found : s.mgmt.arrival q = .tagInUse) :
    s.takeRequest q = s.answerAtArrival (q.answer .tagInUse) none := by
  rw [State.takeRequest, found]
  rfl

theorem State.takeRequest_of_replay {e : CacheEntry} (found : s.mgmt.arrival q = .replay e) :
    s.takeRequest q = s.answerAtArrival
      { tag := e.tag, command := e.command, status := e.status, replayed := true, data := e.data }
      (some .cacheReplays) := by
  rw [State.takeRequest, found]

theorem State.takeRequest_of_busy (found : s.mgmt.arrival q = .busy) :
    s.takeRequest q = State.answerAtArrival { s with mgmt := { s.mgmt with cache := cacheAfterCheck3 s.mgmt.cache q } }
      (q.answer .busy) (some .refusedBusy) := by
  rw [State.takeRequest, found]
  rfl

theorem State.takeRequest_of_queue (found : s.mgmt.arrival q = .queue) :
    s.takeRequest q = { s with mgmt := { s.mgmt with
      cache := cacheAfterCheck3 s.mgmt.cache q, requests := s.mgmt.requests ++ [q] } } := by
  rw [State.takeRequest, found]

end

/-- A Request Frame ends its reception and reaches the arrival checks (R146, R155). -/
theorem exec_requestFrame {s : State} {f : RawFrame} {tag command : Byte} {params : List Byte}
    (running : s.power = .running) (frame : checkInbound f = .request tag command params) :
    exec (.requestFrame f) s =
      .next (s.endInbound.takeRequest { tag := tag, command := command, params := params }) := by
  refine (next_whileOn running _).trans ?_
  simp only [frame]

/-- Settles O38: each check that answers, by the places of the Response Queue; the end of the reception comes before. -/
theorem requestArrival : Obligations.RequestArrival := by
  refine ⟨fun s f tag command params running frame named fresh miss room => ?_,
    fun s f tag command params running frame named => ?_⟩
  · have found : s.endInbound.mgmt.arrival ⟨tag, command, params⟩ = .queue := Mgmt.arrival_of_room named fresh miss room
    rw [exec_requestFrame running frame, State.takeRequest_of_queue found, cacheAfterCheck3_of_miss miss]
    rfl
  rw [exec_requestFrame running frame]
  refine ⟨fun used => ?_, fun e older newer fresh cache tagged commanded apart => ?_, fun fresh miss crowded => ?_⟩
  · have found : s.endInbound.mgmt.arrival ⟨tag, command, params⟩ = .tagInUse := Mgmt.arrival_of_tagInUse named used
    rw [State.takeRequest_of_tagInUse found]
    exact ⟨fun place => congrArg _ (State.answerAtArrival_none_of_place (s := s.endInbound) place _),
      fun full => congrArg _ (State.answerAtArrival_of_full (s := s.endInbound) full _ _)⟩
  · have hit : s.mgmt.cache.find? (fun e => e.tag == tag && e.command == command) = some e := by
      rw [cache, List.find?_append, List.find?_eq_none.mpr fun x mem => by simp [apart x mem]]
      simp [tagged, commanded]
    have found : s.endInbound.mgmt.arrival ⟨tag, command, params⟩ = .replay e := Mgmt.arrival_of_hit named fresh hit
    rw [State.takeRequest_of_replay found, tagged, commanded]
    exact ⟨fun place => congrArg _ (State.answerAtArrival_some_of_place (s := s.endInbound) place _ _),
      fun full => congrArg _ (State.answerAtArrival_of_full (s := s.endInbound) full _ _)⟩
  · have found : s.endInbound.mgmt.arrival ⟨tag, command, params⟩ = .busy :=
      Mgmt.arrival_of_crowded named fresh miss crowded
    rw [State.takeRequest_of_busy found, cacheAfterCheck3_of_miss miss]
    exact ⟨fun place => congrArg _ (State.answerAtArrival_some_of_place (by exact place) _ _),
      fun full => congrArg _ (State.answerAtArrival_of_full (by exact full) _ _)⟩

end Sys2Proof.Machine
end

section
/-! Parameter blocks of a wrong length, commands that no row names, and a RESTART that reached execution (R153, R155, R162,
R163). -/

namespace Sys2Proof.Machine

/-! ### Parameter blocks of a wrong length (R162) -/

/-- The owner answers BAD_LENGTH to every parameter block that does not have `n` bytes. -/
def ownerWantsLength (n : Nat) (owner : State → List Byte → Answer) : Prop :=
  ∀ (s : State) (params : List Byte), params.length ≠ n → owner s params = s.refuse .badLength

/-- The row executes requests of the command `code` at an owner that wants blocks of `length` bytes. -/
def rowWantsLength (i : Instr) (code : Byte) (length : Nat) : Prop :=
  ∃ owner, ownerWantsLength length owner ∧ ∀ s, exec i s = .next (s.whileOn (·.execute (· == code) owner))

/-- Every execution row wants the length of the table, SWAP_ROUTES apart, which may wait and has no owner of its own. -/
theorem rowWantsLength_of_executionRow {i : Instr} {code : Byte} {length : Nat}
    (row : executionRow i = some (code, length)) (notSwap : i ≠ .swapRoutes) : rowWantsLength i code length := by
  cases i with
  | describe | copyRoutes | quietAlert | resync =>
    cases row
    exact ⟨_, fun s params wrong => if_neg (mt List.length_eq_zero_iff.mpr wrong), fun _ => rfl⟩
  | getProfile | getChannel | rebase | dropRoute | getRoutes =>
    cases row
    refine ⟨_, fun s params wrong => ?_, fun _ => rfl⟩
    match params, wrong with
    | [], _ | _ :: _ :: _, _ => rfl
    | [_], wrong => exact absurd rfl wrong
  | setAlert | readCounters | clearCounters =>
    cases row
    refine ⟨_, fun s params wrong => ?_, fun _ => rfl⟩
    match params, wrong with
    | [], _ | [_], _ | _ :: _ :: _ :: _, _ => rfl
    | [_, _], wrong => exact absurd rfl wrong
  | setChannel =>
    cases row
    refine ⟨ownSetChannel, fun s params wrong => ?_, fun _ => rfl⟩
    unfold ownSetChannel
    split
    · exact absurd rfl wrong
    · rfl
  | setRoute =>
    cases row
    refine ⟨ownSetRoute, fun s params wrong => ?_, fun _ => rfl⟩
    unfold ownSetRoute
    split
    · exact absurd rfl wrong
    · rfl
  | setProfile =>
    cases row
    exact ⟨ownSetProfile, fun s params wrong => if_neg wrong, fun _ => rfl⟩
  | swapRoutes => exact absurd rfl notSwap
  | _ => cases row

/-! ### Commands that no row names (R151, R190) -/

/-- The execution rows, in the order of their command codes. -/
def executionRows : List Instr :=
  [.describe, .setProfile, .getProfile, .setChannel, .getChannel, .rebase, .setRoute, .dropRoute, .copyRoutes, .swapRoutes,
   .getRoutes, .setAlert, .quietAlert, .readCounters, .clearCounters, .resync]

/-- The known commands are those of the execution rows, and RESTART. -/
theorem knownCommands_eq :
    Config.knownCommands = (executionRows.filterMap executionRow).map Prod.fst ++ [Config.cmdRestart] := rfl

theorem not_known_of_no_row {k : Byte} (noRow : ∀ i code length, executionRow i = some (code, length) → k ≠ code)
    (notRestart : k ≠ Config.cmdRestart) : k ∉ Config.knownCommands := by
  rw [knownCommands_eq, List.mem_append, List.mem_singleton, not_or]
  refine ⟨fun mem => ?_, notRestart⟩
  obtain ⟨⟨code, length⟩, listed, same⟩ := List.mem_map.mp mem
  obtain ⟨i, -, row⟩ := List.mem_filterMap.mp listed
  exact noRow i code length row same.symm

/-! ### The answers -/

section
variable {s : State} {q : Request} {rest : List Request} (ready : s.ready q rest)
include ready

theorem exec_swapRoutes_badLength (named : q.command = Config.cmdSwapRoutes) (wrong : q.params ≠ []) :
    exec .swapRoutes s = .next (s.answered q rest .badLength []) := by
  rw [exec_swapRoutes, State.whileOn_running ready.running, State.executable_of_ready ready]
  simp only [named, if_true]
  rw [State.beginSwap, if_pos wrong, State.complete_eq_answered ready.head]

theorem exec_unknownCommand (unknown : q.command ∉ Config.knownCommands) :
    exec .unknownCommand s = .next (s.answered q rest .badCommand []) :=
  congrArg _ ((State.execute_of_ready ready ownUnknown (by simpa using unknown)).trans
    (State.complete_refuse ready.head .badCommand))

end

/-- Settles O39: every owner refuses a block of a wrong length, and what an owner refuses is answered and cached. -/
theorem badLengthAndUnknownAnswers : Obligations.BadLengthAndUnknownAnswers := by
  intro s q rest ready
  refine ⟨fun i code length row named wrong => ?_, fun noRow notRestart => ?_, fun restart => ?_⟩
  · by_cases swap : i = .swapRoutes
    · subst swap
      cases row
      exact exec_swapRoutes_badLength ready named (mt List.length_eq_zero_iff.mpr wrong)
    · obtain ⟨owner, wants, executes⟩ := rowWantsLength_of_executionRow row swap
      exact exec_refused ready (executes s) named (wants s q.params wrong)
  · exact exec_unknownCommand ready (not_known_of_no_row noRow notRestart)
  · exact exec_refused ready (owner := ownRestart) rfl restart rfl

end Sys2Proof.Machine
end

section
/-! Every step keeps the bounds of the Management Unit's queues and cache, with their tags distinct (R154, R155, R161). -/

namespace Sys2Proof.Machine

/-! ### The conditions -/

/-- The conditions of R154, R155 and R161 on the Management Unit's own collections; `reserved` tells whether a swap that
has not been taken holds a place of the Response Queue. -/
structure Mgmt.inBounds (m : Mgmt) (reserved : Bool) : Prop where
  requests : m.requests.length ≤ Config.requestCapacity
  requestTags : (m.requests.map (·.tag)).Nodup
  responses : m.responses.length + (if reserved then 1 else 0) ≤ Config.responseCapacity
  cache : m.cache.length ≤ Config.cacheCapacity
  cacheTags : (m.cache.map (·.tag)).Nodup
  apart : ∀ q ∈ m.requests, ∀ e ∈ m.cache, q.tag ≠ e.tag
  parameters : ∀ q ∈ m.requests, q.command = Config.cmdRestart → q.params ≠ []
  swapHead : reserved = true → (m.requests.head?.map (·.command)) = some Config.cmdSwapRoutes

/-- A swap waits only for a frame in reception (R37). -/
def Inlet.waitsForFrame (i : Inlet) : Prop := i.swap = .waiting → i.reception ≠ .hunting

theorem State.reserved_iff (s : State) : s.reserved = true ↔ s.inlet.swap ≠ .none := bne_iff_ne

theorem State.mgmtOk_iff (s : State) : s.mgmtOk ↔ s.mgmt.inBounds s.reserved ∧ s.inlet.waitsForFrame := by
  constructor
  · rintro ⟨requests, requestTags, responses, cache, cacheTags, apart, parameters, swapHead, waits⟩
    exact ⟨⟨requests, requestTags, responses, cache, cacheTags, apart, parameters,
      fun reserved => swapHead (s.reserved_iff.mp reserved)⟩, waits⟩
  · rintro ⟨ok, waits⟩
    exact ⟨ok.requests, ok.requestTags, ok.responses, ok.cache, ok.cacheTags, ok.apart, ok.parameters,
      fun swap => ok.swapHead (s.reserved_iff.mpr swap), waits⟩

/-- The cache of an answered request: what it keeps of the entries it had, and the request's own at its end (R163). -/
theorem Mgmt.answered_cache (m : Mgmt) (q : Request) (rest : List Request) (x : Status) (data : List Byte)
    (bound : m.cache.length ≤ Config.cacheCapacity) :
    ∃ kept, kept.Sublist m.cache ∧ kept.length < Config.cacheCapacity ∧ (m.answered q rest x data).cache =
      kept ++ [{ tag := q.tag, command := q.command, status := x, data := data }] := by
  unfold Mgmt.answered
  dsimp only
  split
  · exact ⟨m.cache, .refl _, by assumption, rfl⟩
  · refine ⟨m.cache.drop 1, List.drop_sublist .., ?_, rfl⟩
    simp only [Config.cacheCapacity, List.length_drop] at bound ⊢
    omega

/-! ### The collections written -/

theorem Mgmt.inBounds_empty : Mgmt.inBounds { requests := [], responses := [], cache := [] } false := by
  constructor <;> simp

section
variable {m : Mgmt} {reserved : Bool} (ok : m.inBounds reserved)
include ok

theorem Mgmt.inBounds.withResponses {responses : List Response}
    (room : responses.length + (if reserved then 1 else 0) ≤ Config.responseCapacity) :
    Mgmt.inBounds { m with responses := responses } reserved := { ok with responses := room }

/-- Entries of the cache removed (R158). -/
theorem Mgmt.inBounds.dropEntries {cache : List CacheEntry} (fewer : cache.Sublist m.cache) :
    Mgmt.inBounds { m with cache := cache } reserved :=
  { ok with
    cache := fewer.length_le.trans ok.cache
    cacheTags := ok.cacheTags.sublist (fewer.map _)
    apart := fun q waits e kept => ok.apart q waits e (fewer.subset kept) }

/-- A request of a new tag joins the Request Queue's tail (R155). -/
theorem Mgmt.inBounds.enqueue {q : Request} (room : m.requests.length < Config.requestCapacity)
    (named : q.command = Config.cmdRestart → q.params ≠ []) (fresh : ∀ p ∈ m.requests, p.tag ≠ q.tag)
    (forgotten : ∀ e ∈ m.cache, e.tag ≠ q.tag) :
    Mgmt.inBounds { m with requests := m.requests ++ [q] } reserved :=
  { ok with
    requests := by simpa using room
    requestTags := by simpa [List.nodup_append] using ⟨ok.requestTags, fresh⟩
    apart := by
      simp only [List.forall_mem_append, List.forall_mem_singleton]
      exact ⟨ok.apart, fun e mem => (forgotten e mem).symm⟩
    parameters := by
      simp only [List.forall_mem_append, List.forall_mem_singleton]
      exact ⟨ok.parameters, named⟩
    swapHead := fun holds => by
      obtain ⟨p, head, swaps⟩ := Option.map_eq_some_iff.mp (ok.swapHead holds)
      simp [List.head?_append, head, swaps] }

/-- The head request begins as a swap that waits, its response place reserved (R37, R161). -/
theorem Mgmt.inBounds.reserve {q : Request} (place : m.responses.length < Config.responseCapacity)
    (head : m.requests.head? = some q) (swaps : q.command = Config.cmdSwapRoutes) : m.inBounds true :=
  { ok with
    responses := place
    swapHead := fun _ => by simp [head, swaps] }

/-- The head request is answered: its tag passes from the Request Queue to the cache (R163). -/
theorem Mgmt.inBounds.answered {q : Request} {rest : List Request}
    (place : m.responses.length < Config.responseCapacity) (head : m.requests = q :: rest) (x : Status)
    (data : List Byte) : (m.answered q rest x data).inBounds false := by
  obtain ⟨kept, fewer, room, cache⟩ := m.answered_cache q rest x data ok.cache
  have ⟨fresh, restTags⟩ : q.tag ∉ rest.map (·.tag) ∧ (rest.map (·.tag)).Nodup := by
    simpa [head] using ok.requestTags
  have apart : ∀ p ∈ q :: rest, ∀ e ∈ kept, p.tag ≠ e.tag := fun p waits e mem =>
    ok.apart p (head ▸ waits) e (fewer.subset mem)
  have queued : ∀ p ∈ rest, p ∈ m.requests := fun p mem => head ▸ List.mem_cons_of_mem q mem
  constructor
  case requests => exact (head ▸ List.sublist_cons_self q rest : rest.Sublist m.requests).length_le.trans ok.requests
  case requestTags => exact restTags
  case responses => simpa [Mgmt.answered] using place
  case cache => simpa [cache] using room
  case cacheTags =>
    rw [cache]
    simpa [List.nodup_append] using
      ⟨ok.cacheTags.sublist (fewer.map _), fun e mem => (apart q (List.mem_cons_self ..) e mem).symm⟩
  case apart =>
    intro p mem
    rw [cache]
    simp only [List.forall_mem_append, List.forall_mem_singleton]
    exact ⟨apart p (List.mem_cons_of_mem q mem), fun same => fresh (List.mem_map.mpr ⟨p, mem, same⟩)⟩
  case parameters => exact fun p mem => ok.parameters p (queued p mem)
  case swapHead => exact nofun

end

/-! ### What the Management Unit sees of a command -/

/-- The Management Unit of `t` is that of `s`, and so are the swap and the reception of the Inlet Receiver. -/
structure SameMgmt (s t : State) : Prop where
  mgmt : t.mgmt = s.mgmt
  swap : t.inlet.swap = s.inlet.swap
  reception : t.inlet.reception = s.inlet.reception

section
variable {s t : State}

theorem SameReceivers.sameMgmt (h : SameReceivers s t) : SameMgmt s t :=
  ⟨h.mgmt, congrArg Inlet.swap h.inlet, congrArg Inlet.reception h.inlet⟩

theorem EditsShadow.sameMgmt {edit : Inlet → List Route → Prop} (h : EditsShadow edit s t) : SameMgmt s t := by
  obtain ⟨bank, -, rfl⟩ := h
  exact ⟨rfl, rfl, rfl⟩

/-- A swap may wait on while a frame is in reception. -/
theorem mgmtOk_of_reception (ok : s.mgmtOk) (mgmt : t.mgmt = s.mgmt) (swap : t.inlet.swap = s.inlet.swap)
    (receives : s.inlet.reception ≠ .hunting → t.inlet.reception ≠ .hunting) : t.mgmtOk := by
  obtain ⟨bounds, waits⟩ := s.mgmtOk_iff.mp ok
  rw [State.mgmtOk_iff, State.reserved, Inlet.waitsForFrame, mgmt, swap]
  exact ⟨bounds, fun waiting => receives (waits waiting)⟩

theorem SameMgmt.mgmtOk (same : SameMgmt s t) (ok : s.mgmtOk) : t.mgmtOk :=
  mgmtOk_of_reception ok same.mgmt same.swap fun receives => same.reception ▸ receives

theorem rowOwnedBy_sameMgmt {i : Instr} (owned : ownedRow i) : rowOwnedBy SameMgmt i := by
  by_cases spares : editsRoutes i = false
  · exact (rowOwnedBy_sameReceivers owned spares).mono fun _ _ => SameReceivers.sameMgmt
  · cases i with
    | setRoute => exact rowOwnedBy_setRoute.mono fun _ _ => EditsShadow.sameMgmt
    | dropRoute => exact rowOwnedBy_dropRoute.mono fun _ _ => EditsShadow.sameMgmt
    | copyRoutes => exact rowOwnedBy_copyRoutes.mono fun _ _ => EditsShadow.sameMgmt
    | _ => exact absurd rfl spares

/-- An inlet frame, taken or not, leaves swap and reception to the end of its reception (R20, R28). -/
theorem sameMgmt_handleInlet (s : State) (f : RawFrame) : SameMgmt s (s.handleInlet f) := by
  have mgmt : (s.handleInlet f).mgmt = s.mgmt := by
    obtain ⟨u, apart, same | ⟨m, copied⟩⟩ := s.handleInlet_cases f
    · exact same ▸ apart.mgmt
    · rw [copied, State.offerMirror]
      split <;> exact apart.mgmt
  have inlet : (s.handleInlet f).inlet.swap = s.inlet.swap ∧ (s.handleInlet f).inlet.reception = s.inlet.reception := by
    unfold State.handleInlet
    split
    · exact ⟨rfl, rfl⟩
    · unfold State.routeFrame
      split
      · exact ⟨rfl, rfl⟩
      · split
        · exact ⟨rfl, rfl⟩
        · rw [State.takeFrame_inlet]
          exact ⟨rfl, rfl⟩
  exact ⟨mgmt, inlet.1, inlet.2⟩

theorem sameMgmt_declareSilent (s : State) (a : ActiveRoute) : SameMgmt s (s.declareSilent a) :=
  ⟨(offLink_declareSilent s a).mgmt, by rw [State.declareSilent_inlet]; rfl, by rw [State.declareSilent_inlet]; rfl⟩

/-- Of the rows that leave the Inlet Receiver alone, RESPONSE_FRAME_SEND alone writes the Management Unit. -/
theorem exec_sameMgmt_of_spares {i : Instr} (spares : sparesInlet i = true) (notSend : i ≠ .responseFrameSend)
    (h : exec i s = .next t) : SameMgmt s t := by
  have inlet := exec_inlet_of_spares spares h
  suffices mgmt : t.mgmt = s.mgmt from SameReceivers.sameMgmt ⟨mgmt, inlet⟩
  have on : ∀ {f : State → State}, (f s).mgmt = s.mgmt → (s.whileOn f).mgmt = s.mgmt :=
    State.whileOn_keeps (P := fun u => u.mgmt = s.mgmt) rfl
  cases i with
  | quietTimerExpiry c =>
    cases h
    refine on ?_
    split
    · exact (channelSide_driftStep (P := (· = c)) s c rfl).mgmt
    · rfl
  | maxActiveExpiry c =>
    cases h
    refine on ?_
    split
    · exact (channelSide_stuckExpiry (P := (· = c)) s c rfl).mgmt
    · rfl
  | ackFrame f =>
    cases h
    refine on ?_
    split
    · rw [State.takeAck_eq]
      exact (eventSide_framesDelivered _ _).mgmt
    all_goals rfl
  | ackTimerExpiry =>
    cases h
    refine on ?_
    split
    · unfold State.ackExpiry
      split <;> rfl
    · rfl
  | transmissionComplete =>
    cases h
    refine on ?_
    split
    · unfold State.completeTransmission
      dsimp only
      split <;> rfl
    · rfl
  | inboundSyncPair =>
    cases h
    exact on rfl
  | responseFrameSend => exact absurd rfl notSend
  | inboundDiscard _ | inboundTruncation | announceTimerExpiry | holdTimerExpiry | announceFrameSend
  | retransmittedFrame | newEventFrame | mirrorFrameSend =>
    cases h
    refine on ?_
    split <;> rfl
  | _ => cases spares

end

/-! ### Receptions (R19) -/

theorem Reception.sync_ne_hunting (r : Reception) : r.sync ≠ .hunting := by
  cases r <;> nofun

theorem Reception.tick_eq_hunting_iff (r : Reception) : r.tick = .hunting ↔ r = .hunting := by
  cases r <;> simp [Reception.tick]

/-! ### Completions and swaps (R37, R163) -/

section
variable {s : State}

/-- The head request is answered when no swap is left that waits. -/
theorem mgmtOk_complete {reserved : Bool} (ok : s.mgmt.inBounds reserved) (swap : s.inlet.swap = .none)
    (place : s.mgmt.responses.length < Config.responseCapacity) {q : Request}
    (head : s.mgmt.requests.head? = some q) (x : Status) (data : List Byte) : (s.complete x data).mgmtOk := by
  obtain ⟨rest, requests⟩ := List.head?_eq_some_iff.mp head
  rw [State.complete_eq_answered requests, State.mgmtOk_iff]
  have free : (s.answered q rest x data).reserved = false := by
    rw [← Bool.not_eq_true, State.reserved_iff]
    exact not_not.mpr swap
  rw [free]
  refine ⟨ok.answered place requests x data, fun waits => ?_⟩
  exact absurd (swap.symm.trans waits) nofun

theorem mgmtOk_takeSwap_complete {reserved : Bool} (ok : s.mgmt.inBounds reserved)
    (place : s.mgmt.responses.length < Config.responseCapacity) {q : Request}
    (head : s.mgmt.requests.head? = some q) : (s.takeSwap.complete .ok []).mgmtOk := by
  have mgmt := s.takeSwap_mgmt
  exact mgmtOk_complete (mgmt ▸ ok) (by rw [State.takeSwap_inlet]; rfl) (mgmt ▸ place) (mgmt ▸ head) _ _

/-- A due swap is taken; its request, at the head, is answered at the place that it held (R37, R163). -/
theorem mgmtOk_takeDueSwap (ok : s.mgmtOk) : s.takeDueSwap.mgmtOk := by
  unfold State.takeDueSwap
  split
  · rename_i due
    have reserved : s.reserved = true := s.reserved_iff.mpr (by rw [due]; nofun)
    have bounds := (s.mgmtOk_iff.mp ok).1
    obtain ⟨q, head, -⟩ := Option.map_eq_some_iff.mp (bounds.swapHead reserved)
    have place : s.mgmt.responses.length + 1 ≤ Config.responseCapacity := by simpa [reserved] using bounds.responses
    exact mgmtOk_takeSwap_complete bounds place head
  · exact ok

/-- A SWAP_ROUTES that begins is answered, or it waits for the frame in reception and holds its place (R37, R161). -/
theorem mgmtOk_beginSwap (ok : s.mgmtOk) {q : Request} (ready : s.executable = some q)
    (swaps : q.command = Config.cmdSwapRoutes) (params : List Byte) : (s.beginSwap params).mgmtOk := by
  obtain ⟨swap, place, head⟩ := State.executable_eq_some.mp ready
  have bounds := (s.mgmtOk_iff.mp ok).1
  unfold State.beginSwap
  split
  · exact mgmtOk_complete bounds swap place head _ _
  · split
    · exact mgmtOk_takeSwap_complete bounds place head
    · rename_i receiving
      exact (State.mgmtOk_iff _).mpr ⟨bounds.reserve place head swaps, fun _ => receiving⟩

/-- A frame's reception ends: a swap that waited for it is due, and still holds its place (R37). -/
theorem mgmtOk_endReception (ok : s.mgmtOk) : (s.modInlet Inlet.endReception).mgmtOk := by
  have ⟨bounds, _⟩ := s.mgmtOk_iff.mp ok
  have reserved : (s.modInlet Inlet.endReception).reserved = s.reserved := by
    simp only [State.reserved, State.modInlet, Inlet.endReception]
    cases s.inlet.swap <;> rfl
  refine (State.mgmtOk_iff _).mpr ⟨reserved ▸ bounds, fun waits => ?_⟩
  simp only [State.modInlet, Inlet.endReception] at waits
  split at waits
  · cases waits
  · contradiction

/-! ### Arriving requests (R155–R160, R172) -/

theorem mgmtOk_answerAtArrival (ok : s.mgmtOk) (r : Response) (k : Option GlobalCounter) :
    (s.answerAtArrival r k).mgmtOk := by
  obtain ⟨place, b, pushed⟩ | ⟨-, full⟩ := s.answerAtArrival_cases r k
  · have ⟨bounds, waits⟩ := s.mgmtOk_iff.mp ok
    have room : s.mgmt.responses.length + (if s.reserved then 1 else 0) < Config.responseCapacity :=
      of_decide_eq_true place
    rw [pushed, State.mgmtOk_iff]
    refine ⟨bounds.withResponses ?_, waits⟩
    rw [List.length_append, List.length_singleton, Nat.add_right_comm]
    exact room
  · rw [full]
    exact ok

theorem mgmtOk_restart (s : State) (tag : Byte) : (s.restart tag).mgmtOk :=
  (State.mgmtOk_iff _).mpr ⟨Mgmt.inBounds_empty, nofun⟩

theorem mgmtOk_takeRequest (ok : s.mgmtOk) (q : Request) : (s.takeRequest q).mgmtOk := by
  have ⟨bounds, waits⟩ := s.mgmtOk_iff.mp ok
  cases found : s.mgmt.arrival q with
  | restart =>
    rw [State.takeRequest, found]
    exact mgmtOk_restart _ _
  | tagInUse =>
    rw [State.takeRequest_of_tagInUse found]
    exact mgmtOk_answerAtArrival ok _ _
  | replay e =>
    rw [State.takeRequest_of_replay found]
    exact mgmtOk_answerAtArrival ok _ _
  | busy =>
    rw [State.takeRequest_of_busy found]
    refine mgmtOk_answerAtArrival ((State.mgmtOk_iff _).mpr ?_) _ _
    exact ⟨bounds.dropEntries (cacheAfterCheck3_sublist _ q), waits⟩
  | queue =>
    obtain ⟨named, fresh, miss, room⟩ := Mgmt.checks_of_arrival_queue found
    have checked := bounds.dropEntries (cacheAfterCheck3_sublist s.mgmt.cache q)
    have forgotten : ∀ e ∈ cacheAfterCheck3 s.mgmt.cache q, e.tag ≠ q.tag := by
      rw [cacheAfterCheck3_of_miss miss]
      exact fun e kept => of_decide_eq_true (List.mem_filter.mp kept).2
    rw [State.takeRequest_of_queue found]
    exact (State.mgmtOk_iff _).mpr ⟨checked.enqueue room named fresh forgotten, waits⟩

/-! ### Every command -/

theorem mgmtOk_ownedRow {i : Instr} (owned : ownedRow i) (ok : s.mgmtOk) {t : State} (h : exec i s = .next t) :
    t.mgmtOk := by
  obtain ⟨is, owner, answers, row⟩ := rowOwnedBy_sameMgmt owned
  cases (row s).symm.trans h
  refine State.whileOn_keeps ok (State.execute_keeps ok fun q ready _ => ?_)
  obtain ⟨swap, place, head⟩ := State.executable_eq_some.mp ready
  have bounds := (s.mgmtOk_iff.mp ok).1
  obtain ⟨x, refused⟩ | ⟨u, data, same, carried⟩ := answers s q.params
  · rw [refused]
    exact mgmtOk_complete bounds swap place head _ _
  · rw [carried]
    have mgmt := same.mgmt
    exact mgmtOk_complete (s := u) (mgmt ▸ bounds) (same.swap.trans swap) (mgmt ▸ place) (mgmt ▸ head) _ _

/-- RESPONSE_FRAME_SEND takes the head response out (R167). -/
theorem mgmtOk_responseFrameSend (ok : s.mgmtOk) {t : State} (h : exec .responseFrameSend s = .next t) : t.mgmtOk := by
  cases h
  refine State.whileOn_keeps ok ?_
  split
  · rename_i r rest _ head
    have ⟨bounds, waits⟩ := s.mgmtOk_iff.mp ok
    have fewer : rest.length ≤ s.mgmt.responses.length := head ▸ Nat.le_succ rest.length
    have room := (Nat.add_le_add_right fewer _).trans bounds.responses
    exact (State.mgmtOk_iff _).mpr ⟨bounds.withResponses room, waits⟩
  · exact ok

theorem mgmtOk_exec (i : Instr) (s t : State) (ok : s.mgmtOk) (h : exec i s = .next t) : t.mgmtOk := by
  by_cases spares : sparesInlet i = true
  · by_cases send : i = .responseFrameSend
    · subst send
      exact mgmtOk_responseFrameSend ok h
    · exact (exec_sameMgmt_of_spares spares send h).mgmtOk ok
  by_cases owned : ownedRow i
  · exact mgmtOk_ownedRow owned ok h
  cases i with
  | powerReset cause =>
    cases h
    exact mgmtOk_heldIn cause
  | resetNRelease =>
    cases power : s.power with
    | held cause =>
      cases (exec_release_of_held power).symm.trans h
      exact mgmtOk_heldIn cause
    | running =>
      cases (exec_release_of_running power).symm.trans h
      exact ok
  | sampleFrame f =>
    cases h
    exact State.whileOn_keeps ok (mgmtOk_endReception ((sameMgmt_handleInlet _ f).mgmtOk (mgmtOk_takeDueSwap ok)))
  | inletTruncation =>
    cases h
    refine State.whileOn_keeps ok ?_
    split
    · exact mgmtOk_endReception ok
    · exact ok
  | inletSyncPair =>
    cases h
    exact State.whileOn_keeps ok (mgmtOk_of_reception ok rfl rfl fun _ => s.inlet.reception.sync_ne_hunting)
  | silenceTimerExpiry source =>
    cases h
    refine State.whileOn_keeps ok ?_
    split
    · split
      · exact (sameMgmt_declareSilent s _).mgmtOk ok
      · exact ok
    · exact ok
  | requestFrame f =>
    cases h
    refine State.whileOn_keeps ok ?_
    split
    · exact mgmtOk_takeRequest (s := s.endInbound) ok _
    all_goals exact ok
  | swapRoutes =>
    cases h
    refine State.whileOn_keeps ok ?_
    split
    · rename_i ready
      split
      · exact mgmtOk_beginSwap ok ready (by assumption) _
      · exact ok
    · exact ok
  | swapTaken =>
    cases h
    exact State.whileOn_keeps ok (mgmtOk_takeDueSwap ok)
  | timeBaseTick =>
    cases h
    exact State.whileOn_keeps ok (mgmtOk_of_reception ok rfl rfl (mt s.inlet.reception.tick_eq_hunting_iff.mp))
  | unknownCommand => exact absurd ⟨.inr (.inl rfl), nofun⟩ owned
  | restartWithParameters => exact absurd ⟨.inr (.inr rfl), nofun⟩ owned
  | describe | setProfile | getProfile | setChannel | getChannel | rebase | setRoute | dropRoute | copyRoutes | getRoutes
  | setAlert | quietAlert | readCounters | clearCounters | resync => exact absurd ⟨.inl rfl, nofun⟩ owned
  | _ => exact absurd rfl spares

end

/-- Settles O59: the conditions speak of the Management Unit, the swap and the reception only, and each command that
writes one of them keeps them. -/
theorem stepKeepsMgmtOk : Obligations.StepKeepsMgmtOk := fun _ _ =>
  step_keeps (fun _ _ ok => ok) mgmtOk_exec

end Sys2Proof.Machine
end

section
/-! SET_ALERT and QUIET_ALERT (R180, R181, R191, R192). -/

namespace Sys2Proof.Machine

/-! ### The two bytes of SET_ALERT (R180, R191) -/

theorem alertModeOf_of_le {b : Byte} (h : 3 ≤ b.toNat) : alertModeOf b = none := by
  have large {k : Byte} (small : k.toNat < 3) : b ≠ k := byte_ne_of_lt (Nat.lt_of_lt_of_le small h)
  rw [alertModeOf, if_neg (large (by decide)), if_neg (large (by decide)), if_neg (large (by decide))]

theorem parseAlert_of_mode {m h : Byte} {mode : AlertMode} (named : alertModeOf m = some mode) (hold : h.toNat ≠ 0) :
    parseAlert m h = some (mode, h.toNat) := by
  have nonzero : h ≠ 0 := mt (congrArg BitVec.toNat) hold
  simp only [parseAlert, named, if_neg nonzero]

theorem parseAlert_none {m h : Byte} (bad : 3 ≤ m.toNat ∨ h.toNat = 0) : parseAlert m h = none := by
  obtain unknown | zero := bad
  · simp only [parseAlert, alertModeOf_of_le unknown]
  · obtain rfl : h = 0 := BitVec.eq_of_toNat_eq zero
    unfold parseAlert
    split <;> rfl

/-! ### Line and hold timer under a new mode (the table of R180) -/

section
variable (a : Alert) (hold : Nat)

theorem Alert.setMode_off :
    a.setMode .off hold = { a with mode := .off, hold := hold, line := false, holdTimer := none } := by
  unfold Alert.setMode
  cases a.mode <;> rfl

/-- Into PULSE: only a line that LATCH had asserted starts the hold timer. -/
theorem Alert.setMode_pulse :
    a.setMode .pulse hold =
      { a with
        mode := .pulse, hold := hold
        holdTimer := if a.mode = .latch ∧ a.line = true then some hold else a.holdTimer } := by
  unfold Alert.setMode
  cases a.mode with
  | off | pulse => rfl
  | latch => cases a.line <;> rfl

/-- Into LATCH: only PULSE had a hold timer to stop. -/
theorem Alert.setMode_latch :
    a.setMode .latch hold =
      { a with mode := .latch, hold := hold, holdTimer := if a.mode = .pulse then none else a.holdTimer } := by
  unfold Alert.setMode
  cases a.mode <;> rfl

end

/-! ### The cause byte (R192) -/

/-- The six causes in the order of R192, and two bits that are always 0. -/
theorem CauseSet.byte_eq_bits8 (x : CauseSet) :
    x.byte = bits8 false false x.stall x.loss x.gap x.silent x.noisy x.stuck :=
  flagByte_eq_bits8 x.stuck x.noisy x.silent x.gap x.loss x.stall false

/-- Each bit of a byte made of bits. -/
theorem bits8_getLsbD : ∀ b7 b6 b5 b4 b3 b2 b1 b0 : Bool,
    let byte := bits8 b7 b6 b5 b4 b3 b2 b1 b0
    byte.getLsbD 0 = b0 ∧ byte.getLsbD 1 = b1 ∧ byte.getLsbD 2 = b2 ∧ byte.getLsbD 3 = b3 ∧ byte.getLsbD 4 = b4 ∧
      byte.getLsbD 5 = b5 ∧ byte.getLsbD 6 = b6 ∧ byte.getLsbD 7 = b7 := by
  decide +kernel

/-! ### The requests -/

section
variable {s : State} {q : Request} {rest : List Request} (ready : s.ready q rest)
include ready

theorem exec_setAlert_stored {m h : Byte} {mode : AlertMode} (command : q.command = 0x30) (params : q.params = [m, h])
    (named : alertModeOf m = some mode) (hold : h.toNat ≠ 0) :
    exec .setAlert s = .next { s.answered q rest .ok [] with alert := s.alert.setMode mode h.toNat } := by
  refine exec_accepted ready rfl command (u := { s with alert := s.alert.setMode mode h.toNat }) ?_ rfl
  simp only [ownSetAlert, params, parseAlert_of_mode named hold]

theorem exec_setAlert_refused {m h : Byte} (command : q.command = 0x30) (params : q.params = [m, h])
    (bad : 3 ≤ m.toNat ∨ h.toNat = 0) : exec .setAlert s = .next (s.answered q rest .badValue []) := by
  refine exec_refused ready rfl command ?_
  simp only [ownSetAlert, params, parseAlert_none bad]

theorem exec_quietAlert_answered (command : q.command = 0x31) (params : q.params = []) :
    exec .quietAlert s = .next { s.answered q rest .ok [s.alert.causes.byte] with
      alert := { s.alert with line := false, holdTimer := none, causes := .empty } } := by
  refine exec_accepted ready rfl command
    (u := { s with alert := { s.alert with line := false, holdTimer := none, causes := .empty } }) ?_ rfl
  simp only [ownQuietAlert, params, if_true]

end

/-- Settles O48: SET_ALERT by its mode byte and the table of R180, QUIET_ALERT by the bits of the cause byte. -/
theorem alertRequests : Obligations.AlertRequests := by
  refine fun s q rest ready => ⟨fun m h command params => ⟨exec_setAlert_refused ready command params,
    fun code hold => ?off, fun code hold => ?pulse, fun code hold => ?latch⟩, fun command params =>
    ⟨_, exec_quietAlert_answered ready command params, ?bits⟩⟩
  case off =>
    obtain rfl : m = 0 := BitVec.eq_of_toNat_eq code
    rw [exec_setAlert_stored ready command params (mode := .off) rfl hold, Alert.setMode_off]
  case pulse =>
    obtain rfl : m = 1 := BitVec.eq_of_toNat_eq code
    rw [exec_setAlert_stored ready command params (mode := .pulse) rfl hold, Alert.setMode_pulse]
  case latch =>
    obtain rfl : m = 2 := BitVec.eq_of_toNat_eq code
    rw [exec_setAlert_stored ready command params (mode := .latch) rfl hold, Alert.setMode_latch]
  case bits =>
    rw [CauseSet.byte_eq_bits8]
    exact bits8_getLsbD ..

end Sys2Proof.Machine
end

section
/-! Counters raised, and counter sets cleared (R182, R185). -/

namespace Sys2Proof.Machine

/-! ### A set cleared (R185) -/

section
variable (b : CounterBank)

theorem CounterBank.get_clear_global (k : GlobalCounter) : (b.clear .global).get k = 0 := CounterBank.get_initial k

theorem CounterBank.clear_global_windows : (b.clear .global).windows = b.windows := rfl

theorem CounterBank.clear_channel_global (c : ChanNo) : (b.clear (.channel c)).global = b.global := rfl

theorem CounterBank.clear_channel_same (c : ChanNo) :
    (b.clear (.channel c)).windows[c] = { accepted := 0, rejected := 0, abandoned := 0 } := b.modWindows_same c _

theorem CounterBank.clear_channel_other {c d : ChanNo} (h : d ≠ c) :
    (b.clear (.channel c)).windows[d] = b.windows[d] := b.modWindows_other _ h

end

/-! ### CLEAR_COUNTERS -/

theorem counterSetOf_channel {b : Byte} {c : ChanNo} (h : b.toNat = c.val) :
    counterSetOf 1 b = some (.channel c) := by simp [counterSetOf, channelOf_of_eq h]

section
variable {s : State} {q : Request} {rest : List Request} (ready : s.ready q rest) {kind b : Byte}
  (command : q.command = 0x33) (params : q.params = [kind, b])
include ready command params

theorem exec_clearCounters_cleared {set : CounterSet} (named : counterSetOf kind b = some set) :
    exec .clearCounters s = .next { s.answered q rest .ok [] with counters := s.counters.clear set } := by
  refine exec_accepted ready rfl command (u := { s with counters := s.counters.clear set }) ?_ rfl
  simp only [ownClearCounters, params, named]

theorem exec_clearCounters_refused (bad : 2 ≤ kind.toNat ∨ kind = 1 ∧ 64 ≤ b.toNat) :
    exec .clearCounters s = .next (s.answered q rest .badValue []) := by
  refine exec_refused ready rfl command ?_
  simp only [ownClearCounters, params, counterSetOf_none bad]

end

/-- Settles O49: a raise by what it adds, CLEAR_COUNTERS by the set that its selector names. -/
theorem countersRaisedAndCleared : Obligations.CountersRaisedAndCleared := by
  refine ⟨fun b j k n => ⟨?raised, b.get_raiseBy_other n, b.raiseBy_windows k n⟩,
    fun s q rest kind b ready command params => ⟨?clearGlobal, ?clearChannel,
      exec_clearCounters_refused ready command params⟩⟩
  case raised => rw [CounterBank.get_raiseBy_same, satAdd_toNat]
  case clearGlobal =>
    rintro rfl
    exact ⟨_, exec_clearCounters_cleared ready command params (set := .global) rfl, s.counters.get_clear_global,
      s.counters.clear_global_windows⟩
  case clearChannel =>
    rintro c rfl named
    exact ⟨_, exec_clearCounters_cleared ready command params (counterSetOf_channel named),
      s.counters.clear_channel_same c, s.counters.clear_channel_global c,
      fun _ => s.counters.clear_channel_other⟩

end Sys2Proof.Machine
end

section
/-! A step runs the front command, every command gives a next state, and no command writes the queue of waiting commands
(assumptions 2 and 16). -/

namespace Sys2Proof.Machine

/-- Settles O1: a step takes its command by the queue's front (assumption 16). -/
theorem stepRunsFrontCommand : Obligations.StepRunsFrontCommand := fun _ =>
  ⟨fun _ _ => step_cons rfl, step_nil rfl⟩

/-! ### Inlet frames and swaps (R28, R37, R38) -/

section
variable (s : State)

@[simp] theorem State.takeSwap_pending : s.takeSwap.pending = s.pending := (channelSide_takeSwap s).pending

@[simp] theorem State.takeDueSwap_pending : s.takeDueSwap.pending = s.pending := by
  unfold State.takeDueSwap
  split
  · exact (State.complete_pending _ _ _).trans s.takeSwap_pending
  · rfl

@[simp] theorem State.beginSwap_pending (params : List Byte) : (s.beginSwap params).pending = s.pending := by
  unfold State.beginSwap
  split
  · exact State.complete_pending _ _ _
  · split
    · exact (State.complete_pending _ _ _).trans s.takeSwap_pending
    · rfl

@[simp] theorem State.handleInlet_pending (f : RawFrame) : (s.handleInlet f).pending = s.pending := by
  unfold State.handleInlet
  split
  · rfl
  · rename_i m _
    unfold State.routeFrame
    split
    · rfl
    · rename_i a _
      split
      · rfl
      · exact (tailSide_takeFrame s a m).pending.trans (routeSide_delivered s a m).pending

@[simp] theorem State.declareSilent_pending (a : ActiveRoute) : (s.declareSilent a).pending = s.pending :=
  (channelSide_silences _ _).pending

/-! ### The outlet link (R129, R136, R141, R144, R148) -/

@[simp] theorem State.takeAck_pending (ack : BitVec 6) (grant : Nat) (resend : Bool) :
    (s.takeAck ack grant resend).pending = s.pending := by
  rw [State.takeAck_eq]
  exact (eventSide_framesDelivered _ _).pending

@[simp] theorem State.ackExpiry_pending : s.ackExpiry.pending = s.pending := by
  unfold State.ackExpiry
  split <;> rfl

@[simp] theorem State.completeTransmission_pending : s.completeTransmission.pending = s.pending := by
  unfold State.completeTransmission
  dsimp only
  split <;> rfl

/-! ### Requests (R155, R161–R163) -/

@[simp] theorem State.takeRequest_pending (q : Request) : (s.takeRequest q).pending = s.pending := by
  unfold State.takeRequest
  dsimp only
  split
  · exact s.takeDueSwap_pending
  · exact s.answerAtArrival_pending _ _
  · exact s.answerAtArrival_pending _ _
  · exact State.answerAtArrival_pending _ _ _
  · rfl

@[simp] theorem State.setConfig_pending (c : ChanNo) (new : ChannelConfig) :
    (s.setConfig c new).pending = s.pending := by
  obtain ⟨-, -, -, -, -, -, pending, -⟩ := setConfig_frame s c new
  exact pending

@[simp] theorem State.applyResync_pending : s.applyResync.pending = s.pending := by
  obtain ⟨-, -, -, -, -, -, pending⟩ := s.applyResync_frame
  exact pending

end

/-- Whatever the owner is asked, its answer leaves the queue of waiting commands as it was. -/
def ownerSparesQueue (owner : State → List Byte → Answer) : Prop :=
  ∀ (s : State) (params : List Byte), (owner s params).state.pending = s.pending

theorem ownSetChannel_sparesQueue : ownerSparesQueue ownSetChannel := by
  intro s params
  unfold ownSetChannel
  split
  · split
    · exact s.setConfig_pending _ _
    · rfl
  · rfl

theorem ownRebase_sparesQueue : ownerSparesQueue ownRebase := by
  intro s params
  unfold ownRebase
  split
  · split
    · rename_i c _
      split
      · exact (channelSide_forceSettling (P := (· = c)) s c rfl).pending
      · rfl
    · rfl
  · rfl

theorem ownResync_sparesQueue : ownerSparesQueue ownResync := by
  intro s params
  unfold ownResync
  split
  · exact s.applyResync_pending
  · rfl

/-- Every execution row but SWAP_ROUTES has an owner that leaves the queue alone. -/
theorem ownedRow_sparesQueue {i : Instr} (owned : ownedRow i) :
    ∃ is owner, ownerSparesQueue owner ∧ ∀ s, exec i s = .next (s.whileOn (·.execute is owner)) := by
  obtain ⟨named, notSwap⟩ := owned
  cases i with
  | setChannel => exact ⟨_, _, ownSetChannel_sparesQueue, fun _ => rfl⟩
  | rebase => exact ⟨_, _, ownRebase_sparesQueue, fun _ => rfl⟩
  | resync => exact ⟨_, _, ownResync_sparesQueue, fun _ => rfl⟩
  | describe | setProfile | getProfile | getChannel | setRoute | dropRoute | copyRoutes | getRoutes | setAlert
  | quietAlert | readCounters | clearCounters | unknownCommand | restartWithParameters =>
    refine ⟨_, _, fun s params => ?_, fun _ => rfl⟩
    simp only [ownDescribe, ownSetProfile, ownGetProfile, ownGetChannel, ownSetRoute, ownDropRoute, ownCopyRoutes,
      ownGetRoutes, ownSetAlert, ownQuietAlert, ownReadCounters, ownClearCounters, ownUnknown, ownRestart]
    repeat' split
    all_goals rfl
  | swapRoutes => exact absurd rfl notSwap
  | _ => simp [executionRow] at named

/-! ### Every command -/

section
variable {i : Instr} {s t : State}

theorem State.whileOn_pending {f : State → State} (h : (f s).pending = s.pending) :
    (s.whileOn f).pending = s.pending := State.whileOn_keeps (P := fun u => u.pending = s.pending) rfl h

theorem exec_pending_of_owned (owned : ownedRow i) (h : exec i s = .next t) : t.pending = s.pending := by
  obtain ⟨is, owner, spares, row⟩ := ownedRow_sparesQueue owned
  cases (row s).symm.trans h
  refine State.whileOn_pending (State.execute_keeps (P := fun u => u.pending = s.pending) rfl fun q _ _ => ?_)
  exact (State.complete_pending _ _ _).trans (spares s q.params)

/-- No command writes the queue of waiting commands (assumption 16). -/
theorem exec_pending (h : exec i s = .next t) : t.pending = s.pending := by
  by_cases owned : ownedRow i
  · exact exec_pending_of_owned owned h
  cases i with
  | powerReset cause =>
    cases h
    rfl
  | resetNRelease =>
    cases power : s.power with
    | held cause =>
      cases (exec_release_of_held power).symm.trans h
      rfl
    | running =>
      cases (exec_release_of_running power).symm.trans h
      rfl
  | sampleFrame f =>
    cases h
    exact State.whileOn_pending ((State.handleInlet_pending _ f).trans s.takeDueSwap_pending)
  | silenceTimerExpiry source =>
    cases h
    refine State.whileOn_pending ?_
    split
    · split
      · exact s.declareSilent_pending _
      · rfl
    · rfl
  | quietTimerExpiry c =>
    cases h
    refine State.whileOn_pending ?_
    split
    · exact (channelSide_driftStep (P := (· = c)) s c rfl).pending
    · rfl
  | maxActiveExpiry c =>
    cases h
    refine State.whileOn_pending ?_
    split
    · exact (channelSide_stuckExpiry (P := (· = c)) s c rfl).pending
    · rfl
  | ackFrame f =>
    cases h
    refine State.whileOn_pending ?_
    split
    · exact State.takeAck_pending _ _ _ _
    all_goals rfl
  | requestFrame f =>
    cases h
    refine State.whileOn_pending ?_
    split
    · exact State.takeRequest_pending _ _
    all_goals rfl
  | ackTimerExpiry =>
    cases h
    refine State.whileOn_pending ?_
    split
    · exact s.ackExpiry_pending
    · rfl
  | transmissionComplete =>
    cases h
    refine State.whileOn_pending ?_
    split
    · exact s.completeTransmission_pending
    · rfl
  | swapRoutes =>
    cases h
    refine State.whileOn_pending ?_
    split
    · split
      · exact s.beginSwap_pending _
      · rfl
    · rfl
  | swapTaken =>
    cases h
    exact State.whileOn_pending s.takeDueSwap_pending
  | timeBaseTick | inletSyncPair | inboundSyncPair =>
    cases h
    exact State.whileOn_pending rfl
  | inletTruncation | inboundDiscard _ | inboundTruncation | announceTimerExpiry | holdTimerExpiry | responseFrameSend
  | announceFrameSend | retransmittedFrame | newEventFrame | mirrorFrameSend =>
    cases h
    refine State.whileOn_pending ?_
    split <;> rfl
  | unknownCommand => exact absurd ⟨.inr (.inl rfl), nofun⟩ owned
  | restartWithParameters => exact absurd ⟨.inr (.inr rfl), nofun⟩ owned
  | _ => exact absurd ⟨.inl rfl, nofun⟩ owned

/-- A release asks whether the part is held; every other command answers as it stands. -/
theorem exec_eq_next (i : Instr) (s : State) : ∃ t, exec i s = .next t := by
  cases i with
  | resetNRelease =>
    cases power : s.power with
    | held cause => exact ⟨_, exec_release_of_held power⟩
    | running => exact ⟨_, exec_release_of_running power⟩
  | _ => exact ⟨_, rfl⟩

end

/-- Settles O2: no command stops, and none writes the queue. -/
theorem everyCommandGivesNextState : Obligations.EveryCommandGivesNextState := by
  intro i s
  obtain ⟨t, executed⟩ := exec_eq_next i s
  exact ⟨t, executed, exec_pending executed⟩

end Sys2Proof.Machine
end
